-- ==== Sys2Proof/Word.lean ====
section
/-! DEFINITION. The byte and word types of the block (spec/00_scope.md R8) and the byte groups of its wire
format (spec/30_encoding.md R68, R69, R70). -/

namespace Sys2Proof

/-- u8 (R8). -/
abbrev Byte := BitVec 8

/-- u16: a word, a command word or an argument word (R8, R70). -/
abbrev Word := BitVec 16

/-- u32: a binary32 bit pattern (R8, R70). -/
abbrev FloatBits := BitVec 32

/-- The request operand lines `D[0]`..`D[17]` (R61). -/
abbrev OperandLines := Vector Byte 18

/-- The output register `O[0]`..`O[11]` (R21, R27). -/
abbrev OutBytes := Vector Byte 12

/-- A word group: high data byte, low data byte, checksum byte, in wire order (R68, R70). -/
structure WordGroup where
  hi  : Byte
  lo  : Byte
  chk : Byte
deriving DecidableEq, Repr

/-- A measurement channel: two word groups, the high word of the float first (R43, R69). -/
structure Channel where
  high : WordGroup
  low  : WordGroup
deriving DecidableEq, Repr

end Sys2Proof
end

