-- ==== Sys2Proof/Config.lean ====
section
/-! DEFINITION. The implementation parameters of spec/00_scope.md R5, and the two values the spec leaves open
(constants with no body: no proof can see what they are). -/

namespace Sys2Proof

/-- The 15 commands of the catalogue (spec/44_command_catalogue.md R161 to R176), by the pseudo-instruction
names of R176. The settle delay is a parameter per command, so the names stand here. -/
inductive Command where
  | fwVersion                    -- R161
  | trigger                      -- R162
  | stop                         -- R163
  | setInterval (seconds : Word) -- R164
  | dataReady                    -- R165
  | measure                      -- R166
  | getAsc                       -- R167
  | setAsc (flag : Bool)         -- R168
  | softReset                    -- R169
  | getAlt                       -- R170
  | setAlt (meters : Word)       -- R171
  | getToff                      -- R172
  | setToff (ticks : Word)       -- R173
  | getFrc                       -- R174
  | setFrc (ppm : Word)          -- R175
deriving DecidableEq, Repr

/-- `CRC_POLY` (R5, R100). -/
def Config.crcPoly : Byte := 0x31#8

/-- `CRC_INIT` (R5, R100). -/
def Config.crcInit : Byte := 0xFF#8

/-- `CRC_XOROUT` (R5): no final XOR. -/
def Config.crcXorOut : Byte := 0x00#8

/-- `BUS_ADDR` (R5, R49): the sensor's address, the transport's `open` argument. -/
def Config.busAddr : Nat := 0x61

/-- `STOP_CMD_WORD` (R5, R163): the value the source gives. UNVERIFIED for the real sensor, log entry 14. -/
def Config.stopCmdWord : Word := 0x0101#16

/-- `ASC_ARG` (R5, R168). -/
def Config.ascArg (flag : Bool) : Word := if flag then 0x0001#16 else 0x0000#16

/-- `SETTLE_DELAY_MS(cmd)` (R5, R235; spec/92_eei_decisions.md D15: OPEN). A free value, log entry 12. -/
opaque Config.settleDelayMs : Command → Nat

/-- Whether STATUS and OUT already show their reset values while RST is held, or keep their old values until
RST is released (R230 states them for the release). A free value, log entry 3. -/
opaque Config.clearsWhileRstHeld : Bool

end Sys2Proof
end

