-- ==== Sys2Proof/Machine/Crc8.lean ====
section
/-! DEFINITION. The Checksum Engine's function and the validator predicate (spec/40_checksum.md R100, R102, R103). -/

namespace Sys2Proof.Machine

/-- One shift of the remainder (R100): left by one bit, and XOR with the polynomial where bit 7 was set. -/
def crcShift (r : Byte) : Byte := if r.getLsbD 7 then (r <<< 1) ^^^ Config.crcPoly else r <<< 1

/-- `n` shifts. -/
def crcShifts : Nat → Byte → Byte
  | 0, r => r
  | n + 1, r => crcShifts n (crcShift r)

/-- One input byte: XOR it into the remainder, then 8 shifts (R100; spec/90_conflicts.md C8: eight for each byte). -/
def crcByte (r b : Byte) : Byte := crcShifts 8 (r ^^^ b)

/-- `crc8(b0, b1)` (R100). -/
def crc8 (b0 b1 : Byte) : Byte := crcByte (crcByte Config.crcInit b0) b1 ^^^ Config.crcXorOut

end Sys2Proof.Machine

namespace Sys2Proof

/-- `valid(h, l, c)` (R103). -/
def WordGroup.valid (g : WordGroup) : Bool := Machine.crc8 g.hi g.lo == g.chk

end Sys2Proof
end

