-- ==== Sys2Proof/Syntax.lean ====
section
/-! DEFINITION. The requests of the block as syntax: one constructor per row of spec/opcode_table.json
(spec/30_encoding.md R62, R63). A request carries the operand bytes its operation reads, and no others (R61). -/

namespace Sys2Proof

/-- A request, decoded. -/
inductive Instr where
  /-- CRC8 (R101): the checksum of two bytes. -/
  | crc8 (b0 b1 : Byte)
  /-- ENC0 (R110): a command frame with no argument. -/
  | enc0 (cHi cLo : Byte)
  /-- ENC1 (R111): a command frame with an argument word. -/
  | enc1 (cHi cLo aHi aLo : Byte)
  /-- DECW (R120): one word group, as a u16. -/
  | decw (g : WordGroup)
  /-- DECRDY (R121): one word group, as the data-ready flag. -/
  | decrdy (g : WordGroup)
  /-- DECBOOL (R122): one word group, as a boolean flag. -/
  | decbool (g : WordGroup)
  /-- DECF (R140): one measurement channel, as a binary32 bit pattern. -/
  | decf (c : Channel)
  /-- DECM (R141): a full measurement, three channels. -/
  | decm (co2 temp rh : Channel)
  /-- ILLEGAL (R63, R204): a reserved header. It is kept whole: STATUS.OP records its low four bits. -/
  | illegal (hdr : Byte)
deriving DecidableEq, Repr

end Sys2Proof
end

