-- ==== Sys2Proof/WellFormed.lean ====
section
/-! DEFINITION. Which terms of Instr stand for a request: every operand byte is free (spec/30_encoding.md R70),
and the header of an illegal request is one of the 248 reserved ones (R63). -/

namespace Sys2Proof

/-- The eight legal headers, 0x01..0x08 (R62, R63). -/
def legalHeader (hdr : Byte) : Bool := 1 ≤ hdr.toNat && hdr.toNat ≤ 8

/-- The one check a term can fail: `illegal` carries a header that R63 reserves. -/
def Instr.wellFormed : Instr → Bool
  | .crc8 _ _ => true
  | .enc0 _ _ => true
  | .enc1 _ _ _ _ => true
  | .decw _ => true
  | .decrdy _ => true
  | .decbool _ => true
  | .decf _ => true
  | .decm _ _ _ => true
  | .illegal hdr => !legalHeader hdr

end Sys2Proof
end

