-- ==== Sys2Proof/Decode.lean ====
section
/-! DEFINITION. The decoder, on the request lines (total, spec/30_encoding.md R64) and on a written request
(R7, R65), and after it the encoder, both from the operation table R62 and the header layout R60. -/

namespace Sys2Proof

/-! ### The operation table -/

/-- A row of R62: the operation code, its mnemonic, operand length N, word groups checked G, result length. -/
structure OpRow where
  op       : BitVec 4
  mnemonic : String
  n        : Nat
  g        : Nat
  outLen   : Nat
deriving DecidableEq, Repr

/-- The table of R62. -/
def opTable : List OpRow :=
  [⟨0x1, "CRC8", 2, 0, 1⟩, ⟨0x2, "ENC0", 2, 0, 2⟩, ⟨0x3, "ENC1", 4, 0, 5⟩, ⟨0x4, "DECW", 3, 1, 2⟩,
   ⟨0x5, "DECRDY", 3, 1, 1⟩, ⟨0x6, "DECBOOL", 3, 1, 1⟩, ⟨0x7, "DECF", 6, 2, 4⟩, ⟨0x8, "DECM", 18, 6, 12⟩]

/-- The row of an operation code; none for the codes R63 reserves. -/
def opRow (op : BitVec 4) : Option OpRow := opTable.find? fun r => r.op == op

/-! ### Header fields (R60) -/

/-- `HDR[7:4]`, RES. -/
def hdrRes (hdr : Byte) : BitVec 4 := hdr.extractLsb' 4 4

/-- `HDR[3:0]`, OP. -/
def hdrOp (hdr : Byte) : BitVec 4 := hdr.extractLsb' 0 4

/-- The row a header selects; none where the header is illegal (R63, R64). -/
def headerRow (hdr : Byte) : Option OpRow := if hdrRes hdr = 0#4 then opRow (hdrOp hdr) else none

/-- The operand length a header selects; an illegal header reads no operand byte (R63, R65). -/
def operandLength (hdr : Byte) : Nat := (headerRow hdr).elim 0 OpRow.n

/-- The number of word groups a header checks (R62). -/
def groupCount (hdr : Byte) : Nat := (headerRow hdr).elim 0 OpRow.g

/-! ### Decoding the request lines -/

/-- Word group k: operand bytes `D[3k..3k+2]` (R46, R70). -/
def groupAt (d : OperandLines) (k : Fin 6) : WordGroup :=
  ⟨d[3 * k.val], d[3 * k.val + 1], d[3 * k.val + 2]⟩

/-- Channel c: word groups 2c and 2c+1, the bytes `D[6c..6c+5]` (R46, R141). -/
def channelAt (d : OperandLines) (c : Fin 3) : Channel :=
  ⟨groupAt d ⟨2 * c.val, by omega⟩, groupAt d ⟨2 * c.val + 1, by omega⟩⟩

/-- The request on the lines. Total (R64): only the header selects the operation, and a header that R62 does
not list is illegal, its operand bytes unread (R63). -/
def decodeRequest (hdr : Byte) (d : OperandLines) : Instr :=
  if hdrRes hdr = 0#4 then
    match (hdrOp hdr).toNat with
    | 0x1 => .crc8 d[0] d[1]
    | 0x2 => .enc0 d[0] d[1]
    | 0x3 => .enc1 d[0] d[1] d[2] d[3]
    | 0x4 => .decw (groupAt d 0)
    | 0x5 => .decrdy (groupAt d 0)
    | 0x6 => .decbool (groupAt d 0)
    | 0x7 => .decf (channelAt d 0)
    | 0x8 => .decm (channelAt d 0) (channelAt d 1) (channelAt d 2)
    | _ => .illegal hdr
  else .illegal hdr

/-! ### Decoding a written request (R7, R65) -/

/-- Why a byte sequence is no written request. -/
inductive DecodeError where
  /-- No byte at all. -/
  | noHeader
  /-- The header asks for `need` operand bytes and only `got` follow. -/
  | truncated (need got : Nat)
deriving DecidableEq, Repr

/-- Operand bytes laid on the lines; a line beyond them is don't-care (R61) and is given 0. -/
def linesOf (bytes : List Byte) : OperandLines := Vector.ofFn fun i => bytes.getD i.val 0

/-- The first written request of a byte sequence, and the bytes after it. -/
def decode : List Byte → Except DecodeError (Instr × List Byte)
  | [] => .error .noHeader
  | hdr :: rest =>
    if rest.length < operandLength hdr then .error (.truncated (operandLength hdr) rest.length)
    else .ok (decodeRequest hdr (linesOf (rest.take (operandLength hdr))), rest.drop (operandLength hdr))

/-! ### The encoder -/

/-- A word group in wire order (R68). -/
def WordGroup.bytes (g : WordGroup) : List Byte := [g.hi, g.lo, g.chk]

/-- A channel in wire order (R43, R69). -/
def Channel.bytes (c : Channel) : List Byte := c.high.bytes ++ c.low.bytes

/-- The header byte of a request (R60, R62). -/
def Instr.header : Instr → Byte
  | .crc8 _ _ => 0x01#8
  | .enc0 _ _ => 0x02#8
  | .enc1 _ _ _ _ => 0x03#8
  | .decw _ => 0x04#8
  | .decrdy _ => 0x05#8
  | .decbool _ => 0x06#8
  | .decf _ => 0x07#8
  | .decm _ _ _ => 0x08#8
  | .illegal hdr => hdr

/-- The operand bytes of a request, in wire order (R61, R70). -/
def Instr.operands : Instr → List Byte
  | .crc8 b0 b1 => [b0, b1]
  | .enc0 cHi cLo => [cHi, cLo]
  | .enc1 cHi cLo aHi aLo => [cHi, cLo, aHi, aLo]
  | .decw g => g.bytes
  | .decrdy g => g.bytes
  | .decbool g => g.bytes
  | .decf c => c.bytes
  | .decm co2 temp rh => co2.bytes ++ temp.bytes ++ rh.bytes
  | .illegal _ => []

/-- The written form of a request: its header, then its operand bytes (R7, R65). -/
def encode (i : Instr) : List Byte := i.header :: i.operands

/-! ### The opcode table's numbering -/

/-- Byte k of an instruction whose first `nbits` bits are `w` and whose further bits are 0; byte 0 is the header. -/
def tableByte (nbits w k : Nat) : Byte := BitVec.ofNat 8 ((w % 2 ^ nbits) >>> (8 * k))

/-- The operand lines of that instruction: bytes 1..18. -/
def tableLines (nbits w : Nat) : OperandLines := Vector.ofFn fun i => tableByte nbits w (i.val + 1)

/-- What the decoder reads from that instruction. -/
def decodeTableWord (nbits w : Nat) : Option Instr :=
  match decode (tableByte nbits w 0 :: (tableLines nbits w).toList) with
  | .ok (i, _) => some i
  | .error _ => none

end Sys2Proof
end

