-- ==== Sys2Proof/Machine/Operands.lean ====
section
/-! DEFINITION. Every operand form of spec/30_encoding.md R70: words, command and argument words, the word groups of
a request, the float bit pattern; and the two flag readings of a low byte (R121, R122). -/

namespace Sys2Proof

/-- `{hi, lo}`, big-endian (R41, R70). -/
def Machine.word (hi lo : Byte) : Word := hi ++ lo

/-- Bits 15..8 of a word, the byte that goes first (R42). -/
def Machine.hiByte (w : Word) : Byte := w.extractLsb' 8 8

/-- Bits 7..0 of a word (R42). -/
def Machine.loByte (w : Word) : Byte := w.extractLsb' 0 8

/-- The word of a group (R41). -/
def WordGroup.word (g : WordGroup) : Word := Machine.word g.hi g.lo

/-- The data bytes of a channel, its checksum bytes discarded (R43). -/
def Channel.dataBytes (c : Channel) : List Byte := [c.high.hi, c.high.lo, c.low.hi, c.low.lo]

/-- The float bit pattern of a channel (R43). -/
def Channel.floatBits (c : Channel) : FloatBits := c.high.hi ++ c.high.lo ++ c.low.hi ++ c.low.lo

/-- The word groups of a channel, in wire order (R43). -/
def Channel.groups (c : Channel) : List WordGroup := [c.high, c.low]

/-- The command word of an encode, `{D[0], D[1]}` (R42, R70). -/
def Instr.commandWord : Instr → Option Word
  | .enc0 cHi cLo => some (Machine.word cHi cLo)
  | .enc1 cHi cLo _ _ => some (Machine.word cHi cLo)
  | .crc8 _ _ | .decw _ | .decrdy _ | .decbool _ | .decf _ | .decm _ _ _ | .illegal _ => none

/-- The argument word of an encode, `{D[2], D[3]}` (R42, R70). -/
def Instr.argumentWord : Instr → Option Word
  | .enc1 _ _ aHi aLo => some (Machine.word aHi aLo)
  | .crc8 _ _ | .enc0 _ _ | .decw _ | .decrdy _ | .decbool _ | .decf _ | .decm _ _ _ | .illegal _ => none

/-- The word groups a request checks, in wire order (R29, R69); none for an operation that is no decode. -/
def Instr.groups : Instr → List WordGroup
  | .crc8 _ _ => []
  | .enc0 _ _ => []
  | .enc1 _ _ _ _ => []
  | .decw g => [g]
  | .decrdy g => [g]
  | .decbool g => [g]
  | .decf c => c.groups
  | .decm co2 temp rh => co2.groups ++ temp.groups ++ rh.groups
  | .illegal _ => []

/-- A boolean result as a byte (spec/92_eei_decisions.md D10; R121, R122). -/
def Machine.flagByte (b : Bool) : Byte := if b then 0x01#8 else 0x00#8

/-- The data-ready reading of a word group: the low byte is 0x01 (R121). The high byte is ignored. -/
def WordGroup.isReady (g : WordGroup) : Bool := g.lo == 0x01#8

/-- The boolean reading of a word group: the low byte is not 0x00 (R122). The high byte is ignored. -/
def WordGroup.isTrue (g : WordGroup) : Bool := g.lo != 0x00#8

end Sys2Proof
end

