-- ==== Sys2Proof/Machine/State.lean ====
section
/-! DEFINITION. The state of the machine: the block's registers STATUS and OUT (spec/10_state.md R21), its input
lines (R61, R230), the host's session (spec/60_exceptions.md R206 to R208), and the inbox, which holds what the
outside world does next. Plain data. -/

namespace Sys2Proof.Machine

/-! ### The host -/

/-- The error kinds a host returns (R206). -/
inductive HostError where
  /-- The transport failed to open. -/
  | ioError
  /-- A transport write or read failed during an operation. -/
  | communicationError
  /-- The block ended a decode with CODE = CHECKSUM_ERROR. -/
  | checksumError
deriving DecidableEq, Repr

/-- What the host returns to its caller (R160, R176, R206, R233). -/
inductive HostResult where
  /-- A session was created (R233). -/
  | handle
  /-- The command has no response. -/
  | unit
  /-- W16. -/
  | word (v : Word)
  /-- FLAG. -/
  | flag (b : Bool)
  /-- F32(0), F32(1), F32(2): CO2 in ppm, temperature in °C, relative humidity in % (R144). -/
  | measurement (co2 temp rh : FloatBits)
  /-- An error (R206). -/
  | error (e : HostError)
deriving DecidableEq, Repr

/-- Where the host stands in its sequence for one command (R208), or outside one (R233). In `opening`, `writing`
and `reading` a transport call is outstanding, and in `settling` its sleep is. -/
inductive Session where
  /-- No session: the transport is not open. -/
  | closed
  /-- `open(bus, 0x61)` is outstanding. -/
  | opening (bus : Nat)
  /-- A session, and no command in progress. -/
  | ready
  /-- `write(handle, frame)` is outstanding. -/
  | writing (c : Command) (frame : List Byte)
  /-- The settle delay of the command: `waitedMs` milliseconds have passed since the write. -/
  | settling (c : Command) (waitedMs : Nat)
  /-- `read(handle, n)` is outstanding. -/
  | reading (c : Command)
deriving DecidableEq, Repr

/-! ### What the outside world can do -/

/-- One thing the outside world does: the input lines of the block (R61, R230), the host's caller (R208, R233), and
the transport's answers, which are draws (R207). -/
inductive Stimulus where
  /-- REQ_VALID, HDR and D are driven to these levels. -/
  | drive (valid : Bool) (hdr : Byte) (d : OperandLines)
  /-- RST is driven to this level. -/
  | setRst (level : Bool)
  /-- The caller asks for a session on a bus. -/
  | openBus (bus : Nat)
  /-- The transport answers `open`. -/
  | opened (ok : Bool)
  /-- The caller drops the handle. -/
  | dropHandle
  /-- The caller calls a command. -/
  | call (c : Command)
  /-- The transport answers `write`. -/
  | written (ok : Bool)
  /-- This many milliseconds pass. -/
  | elapsed (ms : Nat)
  /-- The transport answers `read` with bytes: the first n are the response, the others lie on lines that the
  decode does not read (log entry 13). -/
  | readDone (bytes : OperandLines)
  /-- The transport's `read` fails. -/
  | readFailed
deriving DecidableEq, Repr

/-! ### The machine -/

/-- The whole state (INVENTORY.md, State). -/
structure State where
  /-- STATUS (R25). -/
  status   : BitVec 16
  /-- OUT (R27). -/
  out      : OutBytes
  /-- The level of RST (R230). -/
  rst      : Bool
  /-- The level of REQ_VALID (R61). -/
  reqValid : Bool
  /-- The header lines (R60, R61). -/
  hdr      : Byte
  /-- The operand lines (R61). -/
  d        : OperandLines
  /-- The host (R208). -/
  session  : Session
  /-- What the host last returned to its caller; none while a call is in progress (R208). -/
  returned : Option HostResult
  /-- What the outside world does next, oldest first (R24, R50). The model's own. -/
  inbox    : List Stimulus
deriving DecidableEq, Repr

/-- The machine right after reset: STATUS and OUT as R34 says, RST just released (R230). The lines' levels, the
host's start and the empty inbox are log entries 4, 6 and 1. -/
def State.reset : State :=
  { status := 0x0000#16, out := Vector.replicate 12 0x00#8, rst := false, reqValid := false, hdr := 0x00#8,
    d := Vector.replicate 18 0x00#8, session := .closed, returned := none, inbox := [] }

/-- Why the machine stops where the spec gives no effect. No operation of the block raises one (R200). -/
inductive Fault where
  /-- Raised by the host's side (Machine/HostContract.lean) when its command needs a request while RST is held: no
  request starts (R230), and the encode "must end OK" (R208). Safe: the machine stops. Log entry 8. -/
  | requestWhileRstHeld
  /-- Raised by the host's side when the transport answers a call that is not outstanding (R207). Safe: the machine
  stops. Log entry 11. -/
  | answerWithoutCall
deriving DecidableEq, Repr

/-- What the model has no step for. No operation of the block is refused. -/
inductive Refusal where
  /-- exec has no meaning for the instruction of this mnemonic. Safe. No arm says so. -/
  | notModelled (mnemonic : String)
  /-- Raised by the host's side when the caller starts an operation before the last one has returned: the model has
  no step for it (R213, R236; spec/93_implementation_defined.md I5: refuse). Safe. Log entry 9. -/
  | concurrentOperation
  /-- Raised by the host's side when a command or a drop comes with no open session (R233). Safe. Log entry 10. -/
  | noSession
  /-- Raised by the host's side when a second session is opened (R213, R233). Safe. Log entry 10. -/
  | sessionExists
deriving DecidableEq, Repr

end Sys2Proof.Machine
end

