-- ==== Sys2Proof/Machine/Flags.lean ====
section
/-! DEFINITION. The STATUS register (spec/10_state.md R25, R28 to R31): its fields, the word they pack into, and the
computation of FAILMASK. -/

namespace Sys2Proof.Machine

/-- STATUS.CODE (R28). -/
inductive Code where
  | none
  | ok
  | checksumError
  | illegalOp
deriving DecidableEq, Repr

/-- The two bits of a code (R28). -/
def Code.bits : Code → BitVec 2
  | .none => 0b00#2
  | .ok => 0b01#2
  | .checksumError => 0b10#2
  | .illegalOp => 0b11#2

/-- The code of two bits: all four values are used (R25, R28). -/
def Code.ofBits (b : BitVec 2) : Code :=
  if b = 0b00#2 then .none else if b = 0b01#2 then .ok else if b = 0b10#2 then .checksumError else .illegalOp

/-- The STATUS word `{OUTLEN, OP, FAILMASK, CODE}` (R25). -/
def packStatus (outLen op : BitVec 4) (mask : BitVec 6) (code : Code) : BitVec 16 :=
  outLen ++ op ++ mask ++ code.bits

/-- `STATUS[1:0]` (R25, R28). -/
def statusCode (st : BitVec 16) : Code := Code.ofBits (st.extractLsb' 0 2)

/-- `STATUS[7:2]` (R25, R29). -/
def statusFailMask (st : BitVec 16) : BitVec 6 := st.extractLsb' 2 6

/-- `STATUS[11:8]` (R25, R30). -/
def statusOp (st : BitVec 16) : BitVec 4 := st.extractLsb' 8 4

/-- `STATUS[15:12]` (R25, R31). -/
def statusOutLen (st : BitVec 16) : BitVec 4 := st.extractLsb' 12 4

/-- Whether word group k is there and fails its checksum (R29). -/
def failBit (gs : List WordGroup) (k : Nat) : Bool :=
  match gs[k]? with
  | some g => !g.valid
  | Option.none => false

/-- FAILMASK of a decode: every group is checked, and the bits at and above the group count are 0 (R29, R202). -/
def failMaskOf (gs : List WordGroup) : BitVec 6 :=
  BitVec.ofBool (failBit gs 5) ++ BitVec.ofBool (failBit gs 4) ++ BitVec.ofBool (failBit gs 3) ++
    BitVec.ofBool (failBit gs 2) ++ BitVec.ofBool (failBit gs 1) ++ BitVec.ofBool (failBit gs 0)

end Sys2Proof.Machine
end

