-- ==== Sys2Proof/Machine/Ops.lean ====
section
/-! DEFINITION. The named operations over the block's registers: the one write of a step (spec/10_state.md R22), the
three outcomes (spec/60_exceptions.md R200, R203, R204), the result views (spec/00_scope.md R10), reset (R34), and the
updates of the lines and of the host's fields. There is no return from an exception (R209): the next request is taken
as after OK. -/

namespace Sys2Proof.Machine

/-! ### Outcomes of a request -/

/-- Twelve output bytes: the result bytes first, and 0x00 in every byte after them (R27). -/
def outOf (bytes : List Byte) : OutBytes := Vector.ofFn fun i => bytes.getD i.val 0x00#8

/-- The one write of a step: all of STATUS and all of OUT, together (R22, R27). -/
def State.report (s : State) (status : BitVec 16) (out : OutBytes) : State := { s with status := status, out := out }

/-- The success outcome (R200): CODE = OK, FAILMASK = 0, OUTLEN the number of result bytes. -/
def State.complete (s : State) (op : BitVec 4) (result : List Byte) : State :=
  s.report (packStatus (BitVec.ofNat 4 result.length) op 0#6 .ok) (outOf result)

/-- `raise ChecksumError(mask)` (R203). -/
def State.raiseChecksumError (s : State) (op : BitVec 4) (mask : BitVec 6) : State :=
  s.report (packStatus 0#4 op mask .checksumError) (outOf [])

/-- `raise IllegalOp()` (R204): OP is HDR[3:0]. -/
def State.raiseIllegalOp (s : State) (hdr : Byte) : State :=
  s.report (packStatus 0#4 (hdrOp hdr) 0#6 .illegalOp) (outOf [])

/-- The end of a decode (R29, R202, R203): every group is checked; any failing group gives ChecksumError with the
whole mask, and otherwise the result is written. -/
def State.finishDecode (s : State) (op : BitVec 4) (groups : List WordGroup) (result : List Byte) : State :=
  if failMaskOf groups = 0#6 then s.complete op result else s.raiseChecksumError op (failMaskOf groups)

/-! ### Reading the registers (R10, R25) -/

/-- STATUS.CODE. -/
def State.code (s : State) : Code := statusCode s.status

/-- STATUS.FAILMASK. -/
def State.failMask (s : State) : BitVec 6 := statusFailMask s.status

/-- STATUS.OP. -/
def State.op (s : State) : BitVec 4 := statusOp s.status

/-- STATUS.OUTLEN. -/
def State.outLen (s : State) : Nat := (statusOutLen s.status).toNat

/-- `O[0..OUTLEN-1]`, the result bytes (R7, R31). -/
def State.resultBytes (s : State) : List Byte := s.out.toList.take s.outLen

/-- `W16` (R10). -/
def State.w16 (s : State) : Word := s.out[0] ++ s.out[1]

/-- `F32(k)` (R10). -/
def State.f32 (s : State) (k : Fin 3) : FloatBits :=
  s.out[4 * k.val] ++ s.out[4 * k.val + 1] ++ s.out[4 * k.val + 2] ++ s.out[4 * k.val + 3]

/-- `FLAG` (R10). -/
def State.flag (s : State) : Bool := s.out[0].getLsbD 0

/-- What a claim can observe of the block (R36). -/
def State.observe (s : State) : BitVec 16 × OutBytes := (s.status, s.out)

/-! ### Reset (R34) -/

/-- STATUS and OUT at their reset values. Nothing else is the block's (R21). -/
def State.clear (s : State) : State := s.report 0x0000#16 (outOf [])

/-! ### The lines and the host's fields -/

/-- The request lines driven to new levels (R61). -/
def State.withLines (s : State) (valid : Bool) (hdr : Byte) (d : OperandLines) : State :=
  { s with reqValid := valid, hdr := hdr, d := d }

/-- RST driven to a level (R230). -/
def State.withRst (s : State) (level : Bool) : State := { s with rst := level }

/-- The host moves on in its sequence (R208). -/
def State.withSession (s : State) (p : Session) : State := { s with session := p }

/-- The host returns a value to its caller, or (none) starts a call (R208). -/
def State.withReturned (s : State) (r : Option HostResult) : State := { s with returned := r }

/-- What the outside world does next. -/
def State.withInbox (s : State) (inbox : List Stimulus) : State := { s with inbox := inbox }

end Sys2Proof.Machine
end

