-- ==== Sys2Proof/Machine/Catalogue.lean ====
section
/-! DEFINITION. The command catalogue (spec/44_command_catalogue.md R161 to R176): the request that encodes each
command, the response it has, the decode that response takes, and the result view of that decode. -/

namespace Sys2Proof

/-- The command word (R176). -/
def Command.word : Command → Word
  | .fwVersion => 0xD100#16
  | .trigger => 0x0010#16
  | .stop => Config.stopCmdWord
  | .setInterval _ => 0x4600#16
  | .dataReady => 0x0202#16
  | .measure => 0x0300#16
  | .getAsc => 0x5306#16
  | .setAsc _ => 0x5306#16
  | .softReset => 0xD304#16
  | .getAlt => 0x5102#16
  | .setAlt _ => 0x5102#16
  | .getToff => 0x5403#16
  | .setToff _ => 0x5403#16
  | .getFrc => 0x5204#16
  | .setFrc _ => 0x5204#16

/-- The argument word, where the command has one (R176). -/
def Command.argument : Command → Option Word
  | .trigger => some 0x0000#16
  | .setInterval seconds => some seconds
  | .setAsc flag => some (Config.ascArg flag)
  | .setAlt meters => some meters
  | .setToff ticks => some ticks
  | .setFrc ppm => some ppm
  | .fwVersion | .stop | .dataReady | .measure | .getAsc | .softReset | .getAlt | .getToff | .getFrc => none

namespace Machine

/-- `CMD cw` (R72). -/
def cmdRequest (cw : Word) : Instr := .enc0 (hiByte cw) (loByte cw)

/-- `CMDA cw, a` (R72). -/
def cmdaRequest (cw a : Word) : Instr := .enc1 (hiByte cw) (loByte cw) (hiByte a) (loByte a)

/-- The decode a response takes, or none (R69, R176). -/
inductive Response where
  | none
  | word
  | ready
  | bool
  | measurement
deriving DecidableEq, Repr

/-- The number of bytes read back (R69, R176). -/
def Response.length : Response → Nat
  | .none => 0
  | .word => 3
  | .ready => 3
  | .bool => 3
  | .measurement => 18

/-- The header of the decode (R62, R176). A command without a response has no decode; the host issues none. -/
def Response.header : Response → Option Byte
  | .none => Option.none
  | .word => some 0x04#8
  | .ready => some 0x05#8
  | .bool => some 0x06#8
  | .measurement => some 0x08#8

/-- The result view the host returns when the decode ended OK (R160, R176). -/
def Response.view (r : Response) (s : State) : HostResult :=
  match r with
  | .none => .unit
  | .word => .word s.w16
  | .ready => .flag s.flag
  | .bool => .flag s.flag
  | .measurement => .measurement (s.f32 0) (s.f32 1) (s.f32 2)

end Machine

/-- The request that encodes the command (R160 step 1): ENC0 without an argument, ENC1 with one. -/
def Command.request (c : Command) : Instr :=
  match c.argument with
  | none => Machine.cmdRequest c.word
  | some a => Machine.cmdaRequest c.word a

/-- The response of the command (R176). -/
def Command.response : Command → Machine.Response
  | .fwVersion => .word
  | .trigger => .none
  | .stop => .none
  | .setInterval _ => .none
  | .dataReady => .ready
  | .measure => .measurement
  | .getAsc => .bool
  | .setAsc _ => .bool
  | .softReset => .none
  | .getAlt => .word
  | .setAlt _ => .none
  | .getToff => .word
  | .setToff _ => .none
  | .getFrc => .word
  | .setFrc _ => .none

/-- The frame the command builds (R66, R160): F0 without an argument, F1 with one. -/
def Command.frame (c : Command) : List Byte :=
  [Machine.hiByte c.word, Machine.loByte c.word] ++
    match c.argument with
    | none => []
    | some a => [Machine.hiByte a, Machine.loByte a, Machine.crc8 (Machine.hiByte a) (Machine.loByte a)]

end Sys2Proof
end

