-- ==== Sys2Proof/Machine/Checksum.lean ====
section
/-! DEFINITION. The checksum family: CRC8 (spec/40_checksum.md R101). -/

namespace Sys2Proof.Machine

/-- CRC8 (R101): always OK. -/
def execCrc8 (b0 b1 : Byte) (s : State) : Host.Outcome State Fault Refusal :=
  .next (s.complete 0x1 [crc8 b0 b1])

end Sys2Proof.Machine
end

