-- ==== Sys2Proof/Machine/FloatUnpack.lean ====
section
/-! DEFINITION. The float unpacker: DECF and DECM (spec/43_float_unpack.md R140, R141, R143), and how a result pattern
reads as a number (R142). -/

namespace Sys2Proof.Machine

/-- DECF (R140): the four data bytes of the channel, bit for bit, if both groups pass. -/
def execDecf (c : Channel) (s : State) : Host.Outcome State Fault Refusal :=
  .next (s.finishDecode 0x7 c.groups c.dataBytes)

/-- DECM (R141): the data bytes of the three channels in order, if all six groups pass. -/
def execDecm (co2 temp rh : Channel) (s : State) : Host.Outcome State Fault Refusal :=
  .next (s.finishDecode 0x8 (co2.groups ++ temp.groups ++ rh.groups)
    (co2.dataBytes ++ temp.dataBytes ++ rh.dataBytes))

/-! ### Numerics (R142). No operation of the block uses these. -/

/-- `s = x[31]`. -/
def floatSign (x : FloatBits) : Bool := x.getLsbD 31

/-- `e = x[30:23]`. -/
def floatExp (x : FloatBits) : BitVec 8 := x.extractLsb' 23 8

/-- `f = x[22:0]`. -/
def floatFrac (x : FloatBits) : BitVec 23 := x.extractLsb' 0 23

/-- What a bit pattern stands for (R142). Zero keeps its sign, so that +0.0 and -0.0 stay apart. -/
inductive FloatValue where
  | finite (negative : Bool) (magnitude : Rat)
  | infinite (negative : Bool)
  | nan (quiet : Bool)
deriving DecidableEq, Repr

/-- The reading of R142, by the three ranges of the exponent field. -/
def floatValue (x : FloatBits) : FloatValue :=
  if floatExp x = 0#8 then .finite (floatSign x) (mkRat (floatFrac x).toNat (2 ^ 149))
  else if floatExp x = 255#8 then
    if floatFrac x = 0#23 then .infinite (floatSign x) else .nan ((floatFrac x).getLsbD 22)
  else .finite (floatSign x) (mkRat ((2 ^ 23 + (floatFrac x).toNat) * 2 ^ (floatExp x).toNat) (2 ^ 150))

end Sys2Proof.Machine
end

