-- ==== Sys2Proof/Machine/FrameDecode.lean ====
section
/-! DEFINITION. The word-group decoders: DECW, DECRDY and DECBOOL (spec/42_frame_decode.md R120 to R122). -/

namespace Sys2Proof.Machine

/-- DECW (R120): the two data bytes, if the group passes. -/
def execDecw (g : WordGroup) (s : State) : Host.Outcome State Fault Refusal :=
  .next (s.finishDecode 0x4 [g] [g.hi, g.lo])

/-- DECRDY (R121): true iff the low byte is 0x01, if the group passes. -/
def execDecrdy (g : WordGroup) (s : State) : Host.Outcome State Fault Refusal :=
  .next (s.finishDecode 0x5 [g] [flagByte g.isReady])

/-- DECBOOL (R122): true iff the low byte is nonzero, if the group passes. -/
def execDecbool (g : WordGroup) (s : State) : Host.Outcome State Fault Refusal :=
  .next (s.finishDecode 0x6 [g] [flagByte g.isTrue])

end Sys2Proof.Machine
end

