-- ==== Sys2Proof/Machine/FrameEncode.lean ====
section
/-! DEFINITION. The command encoders: ENC0 and ENC1 (spec/41_frame_encode.md R110, R111), the two frame shapes of
spec/30_encoding.md R66. -/

namespace Sys2Proof.Machine

/-- Frame format F0: the command word alone (R66). -/
def frameF0 (cHi cLo : Byte) : List Byte := [cHi, cLo]

/-- Frame format F1: command word, argument word, and the checksum of the argument bytes only (R66). -/
def frameF1 (cHi cLo aHi aLo : Byte) : List Byte := [cHi, cLo, aHi, aLo, crc8 aHi aLo]

/-- ENC0 (R110): always OK; no check of the command word against the catalogue. -/
def execEnc0 (cHi cLo : Byte) (s : State) : Host.Outcome State Fault Refusal :=
  .next (s.complete 0x2 (frameF0 cHi cLo))

/-- ENC1 (R111): always OK. -/
def execEnc1 (cHi cLo aHi aLo : Byte) (s : State) : Host.Outcome State Fault Refusal :=
  .next (s.complete 0x3 (frameF1 cHi cLo aHi aLo))

end Sys2Proof.Machine
end

