-- ==== Sys2Proof/Machine/Illegal.lean ====
section
/-! DEFINITION. The reserved headers: IllegalOp (spec/30_encoding.md R63, spec/60_exceptions.md R204). -/

namespace Sys2Proof.Machine

/-- ILLEGAL (R204): no operand byte is read. -/
def execIllegal (hdr : Byte) (s : State) : Host.Outcome State Fault Refusal :=
  .next (s.raiseIllegalOp hdr)

end Sys2Proof.Machine
end

