-- ==== Sys2Proof/Machine/Dispatch.lean ====
section
/-! DEFINITION. One arm per operation. -/

namespace Sys2Proof.Machine

def exec (i : Instr) (s : State) : Host.Outcome State Fault Refusal :=
  match i with
  | .crc8 b0 b1 => Sys2Proof.Machine.execCrc8 b0 b1 s
  | .enc0 cHi cLo => Sys2Proof.Machine.execEnc0 cHi cLo s
  | .enc1 cHi cLo aHi aLo => Sys2Proof.Machine.execEnc1 cHi cLo aHi aLo s
  | .decw g => Sys2Proof.Machine.execDecw g s
  | .decrdy g => Sys2Proof.Machine.execDecrdy g s
  | .decbool g => Sys2Proof.Machine.execDecbool g s
  | .decf c => Sys2Proof.Machine.execDecf c s
  | .decm co2 temp rh => Sys2Proof.Machine.execDecm co2 temp rh s
  | .illegal hdr => Sys2Proof.Machine.execIllegal hdr s

end Sys2Proof.Machine
end

