-- ==== Sys2Proof/Machine/Lines.lean ====
section
/-! DEFINITION. The block's input lines: the strobe that starts a step (spec/30_encoding.md R61) and the reset line
(spec/70_reset_and_hazards.md R230). -/

namespace Sys2Proof.Machine

/-- What follows a step that answered a next state. -/
def onNext (o : Host.Outcome State Fault Refusal) (k : State → Host.Outcome State Fault Refusal) :
    Host.Outcome State Fault Refusal :=
  match o with
  | .next s => k s
  | .fault f => .fault f
  | .refused r => .refused r

/-- Whether driving REQ_VALID to `valid` starts a step: the strobe rises (R61), and RST is not held (R230). -/
def State.starts (s : State) (valid : Bool) : Bool := valid && !s.reqValid && !s.rst

/-- The request on the lines, performed whole (R20). -/
def runRequest (s : State) : Host.Outcome State Fault Refusal := exec (decodeRequest s.hdr s.d) s

/-- The lines driven: a rising strobe starts exactly one step (R61). A strobe that is held, falls, or rises while RST
is held starts none (R230). -/
def driveLines (valid : Bool) (hdr : Byte) (d : OperandLines) (s : State) : Host.Outcome State Fault Refusal :=
  if s.starts valid then runRequest (s.withLines valid hdr d) else .next (s.withLines valid hdr d)

/-- RST driven (R230). When it is released STATUS and OUT are at their reset values; while it is held they are there
already or keep their old values, as Config.clearsWhileRstHeld says (log entry 3). -/
def driveRst (level : Bool) (s : State) : Host.Outcome State Fault Refusal :=
  match level, s.rst with
  | false, false => .next s
  | false, true => .next (s.clear.withRst false)
  | true, true => .next s
  | true, false => .next ((if Config.clearsWhileRstHeld then s.clear else s).withRst true)

end Sys2Proof.Machine
end

