-- ==== Sys2Proof/Machine/HostContract.lean ====
section
/-! DEFINITION. The host's sequence for one command and its error behaviour (spec/60_exceptions.md R206 to R208), its
session (spec/70_reset_and_hazards.md R233) and its hazards (R235, R236, R240). -/

namespace Sys2Proof.Machine

/-! ### The transport interface (R207) -/

/-- A call the host makes to the transport. -/
inductive TransportCall where
  | openBus (bus address : Nat)
  | write (bytes : List Byte)
  | sleep (ms : Nat)
  | read (length : Nat)
deriving DecidableEq, Repr

/-- The transport call the host waits for. -/
def Session.outstanding : Session → Option TransportCall
  | .closed => none
  | .opening bus => some (.openBus bus Config.busAddr)
  | .ready => none
  | .writing _ frame => some (.write frame)
  | .settling c _ => some (.sleep (Config.settleDelayMs c))
  | .reading c => some (.read c.response.length)

/-! ### The host's own requests -/

/-- The host presents a request and reads the outcome: REQ_VALID pulses, the block performs the request whole, and the
host goes on with the registers that result (R160). No request starts while RST is held (R230). -/
def issue (hdr : Byte) (d : OperandLines) (s : State) (k : State → Host.Outcome State Fault Refusal) :
    Host.Outcome State Fault Refusal :=
  if s.rst then .fault .requestWhileRstHeld
  else onNext (runRequest (s.withLines true hdr d)) fun t => k (t.withLines false hdr d)

/-- The host returns a value to its caller; the session stays usable, after an error too (R209). -/
def State.returning (s : State) (r : HostResult) : State := (s.withSession .ready).withReturned (some r)

/-! ### The session (R233) -/

/-- The caller asks for a session: the host calls `open`. -/
def openSession (bus : Nat) (s : State) : Host.Outcome State Fault Refusal :=
  match s.session with
  | .closed => .next ((s.withSession (.opening bus)).withReturned none)
  | .ready => .refused .sessionExists
  | .opening _ | .writing _ _ | .settling _ _ | .reading _ => .refused .concurrentOperation

/-- `open` answers: a session, or IoError and no session (R206, R233). -/
def openAnswer (ok : Bool) (s : State) : Host.Outcome State Fault Refusal :=
  match s.session with
  | .opening _ =>
    if ok then .next (s.returning .handle)
    else .next ((s.withSession .closed).withReturned (some (.error .ioError)))
  | .closed | .ready | .writing _ _ | .settling _ _ | .reading _ => .fault .answerWithoutCall

/-- The handle is dropped: the session is destroyed (R233). -/
def dropSession (s : State) : Host.Outcome State Fault Refusal :=
  match s.session with
  | .ready => .next (s.withSession .closed)
  | .closed => .refused .noSession
  | .opening _ | .writing _ _ | .settling _ _ | .reading _ => .refused .concurrentOperation

/-! ### One command (R208) -/

/-- The command is called: the host encodes its frame and writes `O[0..OUTLEN-1]` to the transport. -/
def callCommand (c : Command) (s : State) : Host.Outcome State Fault Refusal :=
  match s.session with
  | .ready =>
    issue c.request.header (linesOf c.request.operands) s fun t =>
      .next ((t.withSession (.writing c t.resultBytes)).withReturned none)
  | .closed => .refused .noSession
  | .opening _ | .writing _ _ | .settling _ _ | .reading _ => .refused .concurrentOperation

/-- `write` answers: the host sleeps, or returns CommunicationError and attempts no read. -/
def writeAnswer (ok : Bool) (s : State) : Host.Outcome State Fault Refusal :=
  match s.session with
  | .writing c _ =>
    if ok then .next (s.withSession (.settling c 0)) else .next (s.returning (.error .communicationError))
  | .closed | .opening _ | .ready | .settling _ _ | .reading _ => .fault .answerWithoutCall

/-- Time passes. A settling host goes on once at least the settle delay has passed (R235): it returns unit where the
command has no response, and reads the response otherwise. -/
def passTime (ms : Nat) (s : State) : Host.Outcome State Fault Refusal :=
  match s.session with
  | .settling c waitedMs =>
    if waitedMs + ms < Config.settleDelayMs c then .next (s.withSession (.settling c (waitedMs + ms)))
    else if c.response.length = 0 then .next (s.returning .unit)
    else .next (s.withSession (.reading c))
  | .closed | .opening _ | .ready | .writing _ _ | .reading _ => .next s

/-- `read` answers with bytes: the host copies them to D, issues the decode of R176, and returns the result view, or
ChecksumError. -/
def readAnswer (bytes : OperandLines) (s : State) : Host.Outcome State Fault Refusal :=
  match s.session with
  | .reading c =>
    match c.response.header with
    | some hdr =>
      issue hdr bytes s fun t =>
        .next (t.returning (if t.code = .checksumError then .error .checksumError else c.response.view t))
    | none => .fault .answerWithoutCall
  | .closed | .opening _ | .ready | .writing _ _ | .settling _ _ => .fault .answerWithoutCall

/-- `read` fails: CommunicationError. -/
def readFailure (s : State) : Host.Outcome State Fault Refusal :=
  match s.session with
  | .reading _ => .next (s.returning (.error .communicationError))
  | .closed | .opening _ | .ready | .writing _ _ | .settling _ _ => .fault .answerWithoutCall

/-! ### One stimulus -/

/-- What the machine does on one stimulus. -/
def react (x : Stimulus) (s : State) : Host.Outcome State Fault Refusal :=
  match x with
  | .drive valid hdr d => driveLines valid hdr d s
  | .setRst level => driveRst level s
  | .openBus bus => openSession bus s
  | .opened ok => openAnswer ok s
  | .dropHandle => dropSession s
  | .call c => callCommand c s
  | .written ok => writeAnswer ok s
  | .elapsed ms => passTime ms s
  | .readDone bytes => readAnswer bytes s
  | .readFailed => readFailure s

/-- A request placed on the lines with a rising strobe, to be performed next: RST released, REQ_VALID low, and the
strobe first in the inbox. -/
def State.present (s : State) (hdr : Byte) (d : OperandLines) : State :=
  ((s.withRst false).withLines false s.hdr s.d).withInbox (.drive true hdr d :: s.inbox)

end Sys2Proof.Machine
end

