-- ==== Sys2Proof/Machine/Step.lean ====
section
/-! DEFINITION. One step: the next thing the outside world does. The block never starts a step by itself
(spec/00_scope.md R6), so with nothing in the inbox the state stays as it is (spec/10_state.md R22). -/

namespace Sys2Proof.Machine

/-- One step of the machine. -/
def step (s : State) : Host.Outcome State Fault Refusal :=
  match s.inbox with
  | [] => .next s
  | x :: rest => react x (s.withInbox rest)

/-- The request whose first `nbits` bits are `w` (numbered as opcode_table.json numbers them, the bits above them 0),
placed so that the next step performs it (log entry 2). -/
def State.withFetchWord (s : State) (nbits w : Nat) : State :=
  s.present (tableByte nbits w 0) (tableLines nbits w)

end Sys2Proof.Machine
end

