-- ==== Sys2Proof/Machine/Assembler.lean ====
section
/-! DEFINITION. The assembler (spec/30_encoding.md R71, R72): the lines it reads, what each assembles to, the written
text of a request, and the reader of a line of text. No operation of the block uses these (spec/92_eei_decisions.md
D17: no semantic effect). -/

namespace Sys2Proof.Machine

/-! ### Lines -/

/-- A line: `MNEMONIC b0, ..., b(N-1)`, `.hdr 0xHH`, or a pseudo-instruction (R71, R72). -/
inductive AsmLine where
  | op (mnemonic : String) (bytes : List Byte)
  | hdr (header : Byte)
  | cmd (cw : Word)
  | cmda (cw a : Word)
  | chkw (b0 b1 b2 : Byte)
  | command (c : Command)
deriving DecidableEq, Repr

/-- The row of a mnemonic (R62). -/
def mnemonicRow (mnemonic : String) : Option OpRow := opTable.find? fun r => r.mnemonic == mnemonic

/-- The bytes a line assembles to: the header of R62 and the operand bytes in the order written, exactly N of them.
`.hdr` writes an illegal header (log entry 18). A pseudo-instruction expands to exactly one request (R72). -/
def AsmLine.assemble : AsmLine → Option (List Byte)
  | .op mnemonic bytes =>
    match mnemonicRow mnemonic with
    | some row => if bytes.length = row.n then some ((0#4 ++ row.op) :: bytes) else none
    | none => none
  | .hdr header => if legalHeader header then none else some [header]
  | .cmd cw => some (encode (cmdRequest cw))
  | .cmda cw a => some (encode (cmdaRequest cw a))
  | .chkw b0 b1 b2 => some (encode (.decw ⟨b0, b1, b2⟩))
  | .command c => some (encode c.request)

/-! ### The written text of a request -/

/-- A hex digit, in the spec's capitals. -/
def hexDigit (n : Nat) : Char := ("0123456789ABCDEF".toList)[n]?.getD '0'

/-- `0xHH` (R71). -/
def hexByte (b : Byte) : List Char := ['0', 'x', hexDigit (b.toNat / 16), hexDigit (b.toNat % 16)]

/-- Operands separated by `, ` (R71). -/
def joinOperands : List (List Char) → List Char
  | [] => []
  | [x] => x
  | x :: y :: rest => x ++ [',', ' '] ++ joinOperands (y :: rest)

/-- The mnemonic of a request as R71 writes it. -/
def mnemonicText : Instr → String
  | .crc8 _ _ => "CRC8"
  | .enc0 _ _ => "ENC0"
  | .enc1 _ _ _ _ => "ENC1"
  | .decw _ => "DECW"
  | .decrdy _ => "DECRDY"
  | .decbool _ => "DECBOOL"
  | .decf _ => "DECF"
  | .decm _ _ _ => "DECM"
  | .illegal _ => ".hdr"

/-- A request as assembler text (R71). -/
def asmText (i : Instr) : List Char :=
  match i with
  | .illegal hdr => (mnemonicText i).toList ++ [' '] ++ hexByte hdr
  | .crc8 _ _ | .enc0 _ _ | .enc1 _ _ _ _ | .decw _ | .decrdy _ | .decbool _ | .decf _ | .decm _ _ _ =>
    (mnemonicText i).toList ++ [' '] ++ joinOperands (i.operands.map hexByte)

/-! ### Reading a line of text -/

/-- The value of a digit in a base up to 16. -/
def digitValue (base : Nat) (c : Char) : Option Nat :=
  let n := c.toNat
  let v := if 48 ≤ n ∧ n ≤ 57 then n - 48 else if 65 ≤ n ∧ n ≤ 70 then n - 55 else if 97 ≤ n ∧ n ≤ 102 then n - 87 else 16
  if v < base then some v else none

/-- The digits of a number, most significant first. -/
def readDigits (base : Nat) : Nat → List Char → Option Nat
  | acc, [] => some acc
  | acc, c :: cs =>
    match digitValue base c with
    | some v => readDigits base (acc * base + v) cs
    | none => none

/-- `0xHH`: exactly two hex digits (R71). -/
def readByte : List Char → Option Byte
  | ['0', 'x', a, b] => (readDigits 16 0 [a, b]).map (BitVec.ofNat 8)
  | _ => none

/-- A u16 of a pseudo-instruction: `0x` and hex digits, or decimal digits (R72 writes both; log entry 18). -/
def readWord (cs : List Char) : Option Word :=
  let n := match cs with
    | '0' :: 'x' :: c :: rest => readDigits 16 0 (c :: rest)
    | c :: rest => readDigits 10 0 (c :: rest)
    | [] => none
  match n with
  | some v => if v < 2 ^ 16 then some (BitVec.ofNat 16 v) else none
  | none => none

/-- A flag of a pseudo-instruction (log entry 18). -/
def readFlag (cs : List Char) : Option Bool :=
  if cs = "true".toList then some true else if cs = "false".toList then some false else none

/-- The text without the spaces before it. -/
def skipSpaces : List Char → List Char
  | ' ' :: cs => skipSpaces cs
  | cs => cs

/-- The text without the spaces around it. -/
def trimSpaces (cs : List Char) : List Char := (skipSpaces (skipSpaces cs).reverse).reverse

/-- The parts between commas, each without the spaces around it; no part at all where the text is blank. -/
def splitOperands (cs : List Char) : List (List Char) :=
  if trimSpaces cs = [] then [] else (cs.splitOn ',').map trimSpaces

/-- The line a mnemonic and its operands stand for: the pseudo-instructions of R72 and R176, else an operation. -/
def readLine (mnemonic : String) (operands : List (List Char)) : Option AsmLine :=
  match mnemonic, operands with
  | ".hdr", [x] => (readByte x).map .hdr
  | "CMD", [x] => (readWord x).map .cmd
  | "CMDA", [x, y] =>
    match readWord x, readWord y with
    | some cw, some a => some (.cmda cw a)
    | _, _ => none
  | "CHKW", [x, y, z] =>
    match readByte x, readByte y, readByte z with
    | some b0, some b1, some b2 => some (.chkw b0 b1 b2)
    | _, _, _ => none
  | "FW_VERSION", [] => some (.command .fwVersion)
  | "TRIGGER", [] => some (.command .trigger)
  | "STOP", [] => some (.command .stop)
  | "SET_INTERVAL", [x] => (readWord x).map fun v => .command (.setInterval v)
  | "DATA_READY", [] => some (.command .dataReady)
  | "MEASURE", [] => some (.command .measure)
  | "GET_ASC", [] => some (.command .getAsc)
  | "SET_ASC", [x] => (readFlag x).map fun v => .command (.setAsc v)
  | "SOFT_RESET", [] => some (.command .softReset)
  | "GET_ALT", [] => some (.command .getAlt)
  | "SET_ALT", [x] => (readWord x).map fun v => .command (.setAlt v)
  | "GET_TOFF", [] => some (.command .getToff)
  | "SET_TOFF", [x] => (readWord x).map fun v => .command (.setToff v)
  | "GET_FRC", [] => some (.command .getFrc)
  | "SET_FRC", [x] => (readWord x).map fun v => .command (.setFrc v)
  | m, xs => (xs.mapM readByte).map (.op m)

/-- A line of assembler text, read. -/
def parseLine (text : List Char) : Option AsmLine :=
  let line := trimSpaces text
  readLine (String.ofList (line.takeWhile (· ≠ ' '))) (splitOperands (line.dropWhile (· ≠ ' ')))

/-- A line of assembler text, assembled. -/
def assembleText (text : List Char) : Option (List Byte) := (parseLine text).bind AsmLine.assemble

end Sys2Proof.Machine
end

