-- ==== Sys2Proof/Safety.lean ====
section
/-! DEFINITION. What claims are stated in: the frame of an operation (spec/10_state.md R20), the outcomes STATUS and OUT
may show (R25, R27 to R31), the host phases that agree with the catalogue, runs of steps, the pseudocode of R100 on
numbers, and the single-bit errors of R104. -/

namespace Sys2Proof.Machine

/-- Everything but STATUS and OUT is as before (R20). -/
def State.SameElsewhere (s t : State) : Prop :=
  t.rst = s.rst ∧ t.reqValid = s.reqValid ∧ t.hdr = s.hdr ∧ t.d = s.d ∧ t.session = s.session ∧
    t.returned = s.returned ∧ t.inbox = s.inbox

/-- The registers show the outcome that R28 to R31 allow for their CODE, and every byte of OUT at or above OUTLEN
is 0. -/
def State.OutcomeLegal (s : State) : Prop :=
  (∀ j : Fin 12, s.outLen ≤ j.val → s.out[j.val] = 0x00#8) ∧
  match s.code with
  | .none => s.status = 0x0000#16
  | .ok => s.failMask = 0#6 ∧ ∃ row, opRow s.op = some row ∧ s.outLen = row.outLen
  | .checksumError =>
    s.outLen = 0 ∧ s.failMask ≠ 0#6 ∧ ∃ row, opRow s.op = some row ∧ s.failMask.toNat < 2 ^ row.g
  | .illegalOp => s.outLen = 0 ∧ s.failMask = 0#6

/-- The host's phase agrees with the catalogue: it writes the frame of its command, and reads only for a command that
has a response (R176, R208). -/
def State.SessionLegal (s : State) : Prop :=
  match s.session with
  | .writing c frame => frame = c.frame
  | .reading c => 0 < c.response.length
  | .closed | .opening _ | .ready | .settling _ _ => True

/-- The invariant of the machine. -/
def State.Inv (s : State) : Prop := s.OutcomeLegal ∧ s.SessionLegal

/-- `n` steps of the machine behind the host's interface. -/
def runSteps (n : Nat) (s : State) : Host.Outcome State Fault Refusal := Sys2Proof.core.run n s

/-- One request as the host presents it: the strobe rises with the lines, and falls (R61). -/
def pulse (request : Byte × OperandLines) : List Stimulus :=
  [.drive true request.1 request.2, .drive false request.1 request.2]

/-- A stimulus on which the block may perform a request or be reset. -/
def Stimulus.mayWriteOutcome : Stimulus → Bool
  | .drive _ _ _ => true
  | .setRst _ => true
  | .call _ => true
  | .readDone _ => true
  | .openBus _ | .opened _ | .dropHandle | .written _ | .elapsed _ | .readFailed => false

/-- A stimulus that is the transport's answer to `read`. -/
def Stimulus.answersRead : Stimulus → Bool
  | .readDone _ => true
  | .readFailed => true
  | .drive _ _ _ | .setRst _ | .openBus _ | .opened _ | .dropHandle | .call _ | .written _ | .elapsed _ => false

/-- A stimulus of the block's own lines, or the passing of time: nothing of the host's caller or transport. -/
def Stimulus.ofLinesOrTime : Stimulus → Bool
  | .drive _ _ _ => true
  | .setRst _ => true
  | .elapsed _ => true
  | .openBus _ | .opened _ | .dropHandle | .call _ | .written _ | .readDone _ | .readFailed => false

/-- One iteration of R100's inner loop, on a number below 256. -/
def crcIteration (r : Nat) : Nat := if r / 128 % 2 = 1 then ((r * 2) ^^^ 0x31) % 256 else r * 2 % 256

/-- R100's pseudocode on numbers: for each input byte, XOR, then 8 iterations. -/
def crcPseudocode (b0 b1 : Nat) : Nat := (crcIteration^[8]) ((crcIteration^[8]) (0xFF ^^^ b0) ^^^ b1)

/-- What the host returns after reading `bytes` for a response (R176, R208): ChecksumError where a group of the response
fails, and otherwise the value the data bytes stand for. -/
def Response.expected (r : Response) (bytes : OperandLines) : HostResult :=
  match r with
  | .none => .unit
  | .word => if (groupAt bytes 0).valid then .word (groupAt bytes 0).word else .error .checksumError
  | .ready => if (groupAt bytes 0).valid then .flag (bytes[1] == 0x01#8) else .error .checksumError
  | .bool => if (groupAt bytes 0).valid then .flag (bytes[1] != 0x00#8) else .error .checksumError
  | .measurement =>
    if ∀ k : Fin 6, (groupAt bytes k).valid = true then
      .measurement (channelAt bytes 0).floatBits (channelAt bytes 1).floatBits (channelAt bytes 2).floatBits
    else .error .checksumError

end Sys2Proof.Machine

namespace Sys2Proof

/-- The group with one of its 24 bits flipped: bits 0..7 of the checksum, 8..15 of the low byte, 16..23 of the high
byte (R104). -/
def WordGroup.flipBit (g : WordGroup) (k : Fin 24) : WordGroup :=
  if k.val < 8 then { g with chk := g.chk ^^^ BitVec.twoPow 8 k.val }
  else if k.val < 16 then { g with lo := g.lo ^^^ BitVec.twoPow 8 (k.val - 8) }
  else { g with hi := g.hi ^^^ BitVec.twoPow 8 (k.val - 16) }

/-- The intact group of a word: its two bytes and their checksum (R68, R123). -/
def intactGroup (v : Word) : WordGroup :=
  ⟨Machine.hiByte v, Machine.loByte v, Machine.crc8 (Machine.hiByte v) (Machine.loByte v)⟩

/-- The intact channel of a float bit pattern (R43). -/
def intactChannel (x : FloatBits) : Channel := ⟨intactGroup (x.extractLsb' 16 16), intactGroup (x.extractLsb' 0 16)⟩

end Sys2Proof
end

