-- ==== Sys2Proof/Certificates/Slice0/Obligations.lean ====
section
/-! DEFINITION. The statements for the provers. A statement about one operation says the next state whole: STATUS, OUT,
and that nothing else changes. In every statement of a step the outside world's move stands first in the inbox, the model's
own field (log entry 1). -/

open Sys2Proof Sys2Proof.Machine

/-! ### Reset (R34, R230) -/

/-- R34: what reset leaves in STATUS and OUT. -/
def Obligations.ResetClearsStatusAndOut : Prop :=
  State.reset.status = 0x0000#16 ∧ State.reset.code = .none ∧ State.reset.failMask = 0#6 ∧ State.reset.op = 0x0#4 ∧
    State.reset.outLen = 0 ∧ State.reset.out = #v[0, 0, 0, 0, 0, 0, 0, 0, 0, 0, 0, 0]

/-- R230: when RST is released, STATUS and OUT are those of R34, from every state; nothing else but RST changes. -/
def Obligations.ReleasingRstResetsTheBlock : Prop :=
  ∀ (s : State) (rest : List Stimulus), s.rst = true → s.inbox = .setRst false :: rest →
    ∃ t, step s = .next t ∧ t.status = 0x0000#16 ∧ t.out = #v[0, 0, 0, 0, 0, 0, 0, 0, 0, 0, 0, 0] ∧ t.rst = false ∧
      t.reqValid = s.reqValid ∧ t.hdr = s.hdr ∧ t.d = s.d ∧ t.session = s.session ∧ t.returned = s.returned ∧
      t.inbox = rest

/-- The model's choice (log entry 3): asserting RST either clears STATUS and OUT at once or leaves them as they are,
and changes nothing else but RST. -/
def Obligations.AssertingRstClearsOrKeeps : Prop :=
  ∀ (s : State) (rest : List Stimulus), s.rst = false → s.inbox = .setRst true :: rest →
    ∃ t, step s = .next t ∧
      (t.observe = s.observe ∨ t.observe = (0x0000#16, #v[0, 0, 0, 0, 0, 0, 0, 0, 0, 0, 0, 0])) ∧ t.rst = true ∧
      t.reqValid = s.reqValid ∧ t.hdr = s.hdr ∧ t.d = s.d ∧ t.session = s.session ∧ t.returned = s.returned ∧
      t.inbox = rest

/-! ### The strobe and the step (R6, R20, R61, R230) -/

/-- R61: a rising strobe, with RST released, performs the request on the lines: the step is exec of the decoded request,
at the state with the lines driven and the stimulus taken from the inbox. -/
def Obligations.RisingStrobeRunsDecodedRequest : Prop :=
  ∀ (s : State) (hdr : Byte) (d : OperandLines) (rest : List Stimulus), s.rst = false → s.reqValid = false →
    s.inbox = .drive true hdr d :: rest →
    step s = exec (decodeRequest hdr d) { s with reqValid := true, hdr := hdr, d := d, inbox := rest }

/-- The step of a written request: laid on the lines with a rising strobe, a well-formed request is performed as
itself. The lines beyond its bytes, which no operation reads (R61), are at 0 here (log entry 17). -/
def Obligations.WrittenRequestRunsAsItself : Prop :=
  ∀ (s : State) (i : Instr) (rest : List Stimulus), i.wellFormed = true → s.rst = false → s.reqValid = false →
    s.inbox = .drive true i.header (linesOf i.operands) :: rest →
    step s = exec i { s with reqValid := true, hdr := i.header, d := linesOf i.operands, inbox := rest }

/-- R61, R230: a strobe that is held high, that is low, or that rises while RST is held starts no step: only the lines'
levels change. -/
def Obligations.NoStepWithoutRisingStrobe : Prop :=
  ∀ (s : State) (valid : Bool) (hdr : Byte) (d : OperandLines) (rest : List Stimulus),
    valid = false ∨ s.reqValid = true ∨ s.rst = true → s.inbox = .drive valid hdr d :: rest →
    step s = .next { s with reqValid := valid, hdr := hdr, d := d, inbox := rest }

/-- R6: the block never starts a step by itself: with nothing more from outside, nothing changes. -/
def Obligations.NothingHappensByItself : Prop := ∀ s : State, s.inbox = [] → step s = .next s

/-- The model's own withFetchWord (log entry 2) and table numbering (log entry 17: the bits above nbits are 0): the placed
instruction is what the next step performs, from every state. That RST drops without the release of R230, STATUS and OUT
being as they were until the instruction writes them, is log entry 2's DESIGN CHOICE. Of the spec's rules only R61's strobe
is used. -/
def Obligations.PlacedTableWordRunsNext : Prop :=
  ∀ (s : State) (nbits w : Nat), ∃ i, decodeTableWord nbits w = some i ∧
    step (s.withFetchWord nbits w) =
      exec i { s with rst := false, reqValid := true, hdr := tableByte nbits w 0, d := tableLines nbits w }

/-! ### Encoding (R60 to R65) -/

/-- Every well-formed request, with every operand at every value, decodes from its written form, whatever follows. -/
def Obligations.DecodeOfEncodeIsTheRequest : Prop :=
  ∀ (i : Instr) (rest : List Byte), i.wellFormed = true → decode (encode i ++ rest) = .ok (i, rest)

/-- What decodes is the written form of a well-formed request, and nothing of the bytes is lost. -/
def Obligations.EncodeOfDecodeIsTheBytes : Prop :=
  ∀ (bytes rest : List Byte) (i : Instr), decode bytes = .ok (i, rest) →
    i.wellFormed = true ∧ encode i ++ rest = bytes

/-- R64: every header selects exactly one outcome, and the operand bytes never change which: the decoded request has the
header it was read from, and is `illegal` exactly for the headers that no row of R62 has. -/
def Obligations.HeaderAloneSelectsTheOperation : Prop :=
  ∀ (hdr : Byte) (d : OperandLines),
    (decodeRequest hdr d).header = hdr ∧ (decodeRequest hdr d).wellFormed = true ∧
    (decodeRequest hdr d = .illegal hdr ↔ ∀ row ∈ opTable, hdr ≠ 0#4 ++ row.op) ∧
    ∀ d' : OperandLines, mnemonicText (decodeRequest hdr d) = mnemonicText (decodeRequest hdr d')

/-- R63: the illegal headers are those with RES ≠ 0, OP = 0x0 or OP in 0x9..0xF, 248 of the 256; they read no operand
byte and end ILLEGAL_OP. -/
def Obligations.ReservedHeadersAreIllegal : Prop :=
  (∀ (hdr : Byte) (d : OperandLines),
    hdr.extractLsb' 4 4 ≠ 0b0000#4 ∨ hdr.extractLsb' 0 4 = 0x0#4 ∨ 0x9 ≤ (hdr.extractLsb' 0 4).toNat →
    decodeRequest hdr d = .illegal hdr ∧ operandLength hdr = 0 ∧
      ∀ s : State, ∃ t, exec (decodeRequest hdr d) s = .next t ∧ t.code = .illegalOp) ∧
  (∀ (hdr : Byte) (d : OperandLines),
    ¬(hdr.extractLsb' 4 4 ≠ 0b0000#4 ∨ hdr.extractLsb' 0 4 = 0x0#4 ∨ 0x9 ≤ (hdr.extractLsb' 0 4).toNat) →
    decodeRequest hdr d ≠ .illegal hdr) ∧
  ((List.range 256).countP fun n => !legalHeader (BitVec.ofNat 8 n)) = 248

/-- R62: every row of the table selects the operation of its mnemonic, which reads N operand bytes, checks G word groups
and, where it ends OK, leaves OUTLEN result bytes. -/
def Obligations.OperationTableRowsHold : Prop :=
  ∀ row ∈ opTable, ∀ (d : OperandLines) (s : State),
    mnemonicText (decodeRequest (0#4 ++ row.op) d) = row.mnemonic ∧
    (decodeRequest (0#4 ++ row.op) d).operands = d.toList.take row.n ∧
    (decodeRequest (0#4 ++ row.op) d).groups.length = row.g ∧
    ∃ t, exec (decodeRequest (0#4 ++ row.op) d) s = .next t ∧ (t.code = .ok → t.outLen = row.outLen)

/-- R61, R47: the bytes at and beyond N are don't-care: two requests with one header that agree below N are one
request. -/
def Obligations.OperandsBeyondLengthDontCare : Prop :=
  ∀ (hdr : Byte) (d d' : OperandLines), (∀ j : Fin 18, j.val < operandLength hdr → d[j.val] = d'[j.val]) →
    decodeRequest hdr d = decodeRequest hdr d'

/-- A few written requests of R71 and the worked examples, decoded. A sanity statement. -/
def Obligations.SampleRequestsDecode : Prop :=
  decode [0x01, 0xBE, 0xEF] = .ok (.crc8 0xBE 0xEF, []) ∧
  decode [0x02, 0xD1, 0x00] = .ok (.enc0 0xD1 0x00, []) ∧
  decode [0x03, 0x46, 0x00, 0x00, 0x02] = .ok (.enc1 0x46 0x00 0x00 0x02, []) ∧
  decode [0x04, 0x12, 0x34, 0x37] = .ok (.decw ⟨0x12, 0x34, 0x37⟩, []) ∧
  decode [0x07, 0x43, 0xDB, 0xCB, 0x8C, 0x2D, 0xDC] = .ok (.decf ⟨⟨0x43, 0xDB, 0xCB⟩, ⟨0x8C, 0x2D, 0xDC⟩⟩, []) ∧
  decode [0x14, 0x12] = .ok (.illegal 0x14, [0x12])

/-! ### The operations: result, completion and frame -/

/-- R101: CRC8 always ends OK with the checksum in O[0]. -/
def Obligations.Crc8WritesTheChecksum : Prop :=
  (∀ d : OperandLines, decodeRequest 0x01#8 d = .crc8 d[0] d[1]) ∧
  (∀ (b0 b1 : Byte) (s : State), ∃ t, exec (.crc8 b0 b1) s = .next t ∧ t.status = 0x1101#16 ∧
    t.out = #v[crc8 b0 b1, 0, 0, 0, 0, 0, 0, 0, 0, 0, 0, 0] ∧ s.SameElsewhere t) ∧
  crc8 0x00 0x00 = 0x81#8 ∧ crc8 0xFF 0x00 = 0x00#8 ∧ crc8 0xFF 0xFF = 0xAC#8 ∧ crc8 0x00 0x01 = 0xB0#8 ∧
  crc8 0x01 0x00 = 0x75#8 ∧ crc8 0xBE 0xEF = 0x92#8

/-- R110: ENC0 always ends OK with the F0 frame of its command word. -/
def Obligations.Enc0BuildsFrameF0 : Prop :=
  (∀ d : OperandLines, decodeRequest 0x02#8 d = .enc0 d[0] d[1]) ∧
  (∀ (cHi cLo : Byte) (s : State), ∃ t, exec (.enc0 cHi cLo) s = .next t ∧ t.status = 0x2201#16 ∧
    t.out = #v[cHi, cLo, 0, 0, 0, 0, 0, 0, 0, 0, 0, 0] ∧ s.SameElsewhere t)

/-- R111: ENC1 always ends OK with the F1 frame: command word, argument word, and the checksum of the argument bytes. -/
def Obligations.Enc1BuildsFrameF1 : Prop :=
  (∀ d : OperandLines, decodeRequest 0x03#8 d = .enc1 d[0] d[1] d[2] d[3]) ∧
  (∀ (cHi cLo aHi aLo : Byte) (s : State), ∃ t, exec (.enc1 cHi cLo aHi aLo) s = .next t ∧ t.status = 0x5301#16 ∧
    t.out = #v[cHi, cLo, aHi, aLo, crc8 aHi aLo, 0, 0, 0, 0, 0, 0, 0] ∧ s.SameElsewhere t) ∧
  crc8 0x00 0x00 = 0x81#8 ∧ crc8 0xFF 0x00 = 0x00#8 ∧ crc8 0x12 0x34 = 0x37#8 ∧ crc8 0x00 0x02 = 0xE3#8

/-- R120: DECW gives the word of an intact group, and ChecksumError with mask 0b000001 and a cleared OUT otherwise. -/
def Obligations.DecwValidatesAndReturnsTheWord : Prop :=
  (∀ d : OperandLines, decodeRequest 0x04#8 d = .decw ⟨d[0], d[1], d[2]⟩) ∧
  (∀ (h l c : Byte) (s : State), ∃ t, exec (.decw ⟨h, l, c⟩) s = .next t ∧ s.SameElsewhere t ∧
    (crc8 h l = c → t.status = 0x2401#16 ∧ t.out = #v[h, l, 0, 0, 0, 0, 0, 0, 0, 0, 0, 0] ∧ t.w16 = h ++ l) ∧
    (crc8 h l ≠ c → t.status = 0x0406#16 ∧ t.out = #v[0, 0, 0, 0, 0, 0, 0, 0, 0, 0, 0, 0])) ∧
  crc8 0x00 0x00 = 0x81#8 ∧ crc8 0xFF 0x00 = 0x00#8 ∧ crc8 0xFF 0xFF = 0xAC#8 ∧ crc8 0x12 0x34 = 0x37#8

/-- R121: DECRDY gives true for the low byte 0x01 alone, whatever the high byte, if the group is intact. -/
def Obligations.DecrdyReadsTheReadyFlag : Prop :=
  (∀ d : OperandLines, decodeRequest 0x05#8 d = .decrdy ⟨d[0], d[1], d[2]⟩) ∧
  (∀ (h l c : Byte) (s : State), ∃ t, exec (.decrdy ⟨h, l, c⟩) s = .next t ∧ s.SameElsewhere t ∧
    (crc8 h l = c → t.status = 0x1501#16 ∧
      t.out = #v[if l = 0x01#8 then 0x01#8 else 0x00#8, 0, 0, 0, 0, 0, 0, 0, 0, 0, 0, 0] ∧
      t.flag = decide (l = 0x01#8)) ∧
    (crc8 h l ≠ c → t.status = 0x0506#16 ∧ t.out = #v[0, 0, 0, 0, 0, 0, 0, 0, 0, 0, 0, 0])) ∧
  crc8 0x00 0x01 = 0xB0#8 ∧ crc8 0x00 0x02 = 0xE3#8

/-- R122: DECBOOL gives true for every nonzero low byte, whatever the high byte, if the group is intact. -/
def Obligations.DecboolReadsTheBooleanFlag : Prop :=
  (∀ d : OperandLines, decodeRequest 0x06#8 d = .decbool ⟨d[0], d[1], d[2]⟩) ∧
  (∀ (h l c : Byte) (s : State), ∃ t, exec (.decbool ⟨h, l, c⟩) s = .next t ∧ s.SameElsewhere t ∧
    (crc8 h l = c → t.status = 0x1601#16 ∧
      t.out = #v[if l ≠ 0x00#8 then 0x01#8 else 0x00#8, 0, 0, 0, 0, 0, 0, 0, 0, 0, 0, 0] ∧
      t.flag = decide (l ≠ 0x00#8)) ∧
    (crc8 h l ≠ c → t.status = 0x0606#16 ∧ t.out = #v[0, 0, 0, 0, 0, 0, 0, 0, 0, 0, 0, 0])) ∧
  crc8 0x00 0x01 = 0xB0#8 ∧ crc8 0x01 0x00 = 0x75#8

/-- R121, R122: on one intact group the two flag decodes give one flag exactly where the low byte is 0x00 or 0x01. -/
def Obligations.FlagDecodesAgreeOnlyOnZeroAndOne : Prop :=
  ∀ (g : WordGroup) (s t u : State), g.valid = true → exec (.decrdy g) s = .next t → exec (.decbool g) s = .next u →
    (t.flag = u.flag ↔ g.lo.toNat ≤ 1)

/-- R140: DECF gives the four data bytes of an intact channel, and ChecksumError with both fail bits otherwise. -/
def Obligations.DecfUnpacksOneChannel : Prop :=
  (∀ d : OperandLines, decodeRequest 0x07#8 d = .decf ⟨⟨d[0], d[1], d[2]⟩, ⟨d[3], d[4], d[5]⟩⟩) ∧
  (∀ (h0 l0 c0 h1 l1 c1 : Byte) (s : State),
    ∃ t, exec (.decf ⟨⟨h0, l0, c0⟩, ⟨h1, l1, c1⟩⟩) s = .next t ∧ s.SameElsewhere t ∧
    (crc8 h0 l0 = c0 ∧ crc8 h1 l1 = c1 → t.status = 0x4701#16 ∧
      t.out = #v[h0, l0, h1, l1, 0, 0, 0, 0, 0, 0, 0, 0] ∧ t.f32 0 = h0 ++ l0 ++ h1 ++ l1) ∧
    (crc8 h0 l0 ≠ c0 ∧ crc8 h1 l1 = c1 → t.status = 0x0706#16 ∧ t.out = #v[0, 0, 0, 0, 0, 0, 0, 0, 0, 0, 0, 0]) ∧
    (crc8 h0 l0 = c0 ∧ crc8 h1 l1 ≠ c1 → t.status = 0x070A#16 ∧ t.out = #v[0, 0, 0, 0, 0, 0, 0, 0, 0, 0, 0, 0]) ∧
    (crc8 h0 l0 ≠ c0 ∧ crc8 h1 l1 ≠ c1 → t.status = 0x070E#16 ∧ t.out = #v[0, 0, 0, 0, 0, 0, 0, 0, 0, 0, 0, 0])) ∧
  crc8 0x00 0x00 = 0x81#8 ∧ crc8 0x80 0x00 = 0xA2#8 ∧ crc8 0x7F 0xC0 = 0x64#8 ∧ crc8 0x00 0x01 = 0xB0#8 ∧
  crc8 0x43 0xDB = 0xCB#8 ∧ crc8 0x8C 0x2D = 0xDC#8

/-- R141: DECM gives the data bytes of three intact channels in order, and otherwise ChecksumError with the fail bit of
every group that fails, and no part of a result; each channel is exactly a DECF of its six bytes; and the checksums and
numbers of the rule's worked example. -/
def Obligations.DecmUnpacksTheMeasurement : Prop :=
  ∀ (d : OperandLines) (s : State), ∃ t, exec (decodeRequest 0x08#8 d) s = .next t ∧ s.SameElsewhere t ∧
    decodeRequest 0x08#8 d = .decm ⟨⟨d[0], d[1], d[2]⟩, ⟨d[3], d[4], d[5]⟩⟩ ⟨⟨d[6], d[7], d[8]⟩, ⟨d[9], d[10], d[11]⟩⟩
      ⟨⟨d[12], d[13], d[14]⟩, ⟨d[15], d[16], d[17]⟩⟩ ∧
    ((∀ k : Fin 6, crc8 d[3 * k.val] d[3 * k.val + 1] = d[3 * k.val + 2]) → t.status = 0xC801#16 ∧
      t.out = #v[d[0], d[1], d[3], d[4], d[6], d[7], d[9], d[10], d[12], d[13], d[15], d[16]] ∧
      t.f32 0 = d[0] ++ d[1] ++ d[3] ++ d[4] ∧ t.f32 1 = d[6] ++ d[7] ++ d[9] ++ d[10] ∧
      t.f32 2 = d[12] ++ d[13] ++ d[15] ++ d[16] ∧
      ∀ c : Fin 3, ∃ u, exec (.decf (channelAt d c)) s = .next u ∧ u.code = .ok ∧ t.f32 c = u.f32 0) ∧
    ((∃ k : Fin 6, crc8 d[3 * k.val] d[3 * k.val + 1] ≠ d[3 * k.val + 2]) → t.code = .checksumError ∧ t.op = 0x8#4 ∧
      t.outLen = 0 ∧ t.out = #v[0, 0, 0, 0, 0, 0, 0, 0, 0, 0, 0, 0] ∧
      ∀ k : Fin 6, t.failMask.getLsbD k.val = decide (crc8 d[3 * k.val] d[3 * k.val + 1] ≠ d[3 * k.val + 2])) ∧
    crc8 0x43 0xDB = 0xCB#8 ∧ crc8 0x8C 0x2D = 0xDC#8 ∧ crc8 0x41 0xC8 = 0x02#8 ∧ crc8 0x00 0x00 = 0x81#8 ∧
    crc8 0x42 0x48 = 0x55#8 ∧ floatValue 0x43DB8C2D#32 = .finite false (14388269 / 32768) ∧
    floatValue 0x41C80000#32 = .finite false 25 ∧ floatValue 0x42480000#32 = .finite false 50

/-- R204: an illegal header clears OUT, ends ILLEGAL_OP with no fail bit, and records its low four bits. -/
def Obligations.IllegalHeaderRaisesIllegalOp : Prop :=
  (∀ (hdr : Byte) (s : State), ∃ t, exec (.illegal hdr) s = .next t ∧ t.code = .illegalOp ∧ t.failMask = 0#6 ∧
    t.op = hdr.extractLsb' 0 4 ∧ t.outLen = 0 ∧ t.out = #v[0, 0, 0, 0, 0, 0, 0, 0, 0, 0, 0, 0] ∧
    s.SameElsewhere t) ∧
  (∀ (s t : State), exec (.illegal 0x0F#8) s = .next t → t.status = 0x0F03#16) ∧
  (∀ (s t : State), exec (.illegal 0x14#8) s = .next t → t.status = 0x0403#16)

/-! ### Rules over all operations -/

/-- R20: a step's result depends only on its own request, and no state other than STATUS and OUT changes: from any two
states one request completes with the same STATUS and OUT. -/
def Obligations.ResultDependsOnlyOnTheRequest : Prop :=
  ∀ (i : Instr) (s s' : State), ∃ t t', exec i s = .next t ∧ exec i s' = .next t' ∧ t.observe = t'.observe ∧
    s.SameElsewhere t ∧ s'.SameElsewhere t'

/-- R200: every step ends in exactly one of three outcomes: IllegalOp for an illegal header, ChecksumError for a decode
with a failing group, and success otherwise. -/
def Obligations.EveryStepEndsInOneOfThreeOutcomes : Prop :=
  ∀ (hdr : Byte) (d : OperandLines) (s : State), ∃ t, exec (decodeRequest hdr d) s = .next t ∧
    (t.code = .illegalOp ↔ legalHeader hdr = false) ∧
    (t.code = .checksumError ↔ ∃ k : Fin 6, k.val < groupCount hdr ∧ (groupAt d k).valid = false) ∧
    (t.code = .ok ↔ legalHeader hdr = true ∧ ∀ k : Fin 6, k.val < groupCount hdr → (groupAt d k).valid = true)

/-- R29: bit k of FAILMASK is 1 iff the request checks word group k and that group fails; every group is checked. -/
def Obligations.FailMaskRecordsEveryFailingGroup : Prop :=
  ∀ (hdr : Byte) (d : OperandLines) (s : State), ∃ t, exec (decodeRequest hdr d) s = .next t ∧
    ∀ k : Fin 6, t.failMask.getLsbD k.val =
      decide (k.val < groupCount hdr ∧ crc8 d[3 * k.val] d[3 * k.val + 1] ≠ d[3 * k.val + 2])

/-- R30: STATUS.OP records HDR[3:0], legal or not. -/
def Obligations.StatusOpRecordsTheHeader : Prop :=
  ∀ (hdr : Byte) (d : OperandLines) (s : State), ∃ t, exec (decodeRequest hdr d) s = .next t ∧
    t.op = hdr.extractLsb' 0 4

/-- R31: OUTLEN is the length of the operation's result after OK, and 0 after an error and after reset, so that only 0, 1,
2, 4, 5 and 12 occur; and every byte of OUT at or above it is 0x00 (R27). -/
def Obligations.OutLenAndZeroFill : Prop :=
  State.reset.outLen = 0 ∧
  ∀ (hdr : Byte) (d : OperandLines) (s : State), ∃ t, exec (decodeRequest hdr d) s = .next t ∧
    (t.code = .ok → t.outLen = [0, 1, 2, 5, 2, 1, 1, 4, 12].getD hdr.toNat 0) ∧ (t.code ≠ .ok → t.outLen = 0) ∧
    t.outLen ∈ [0, 1, 2, 4, 5, 12] ∧ ∀ j : Fin 12, t.outLen ≤ j.val → t.out[j.val] = 0x00#8

/-- R25, R28, R31: what STATUS and OUT can show, with the host's phases: every step keeps it. -/
def Obligations.EveryStepKeepsTheInvariant : Prop := ∀ s t : State, s.Inv → step s = .next t → t.Inv

/-- The invariant holds after reset. -/
def Obligations.InvariantHoldsAtReset : Prop := State.reset.Inv

/-- R230: reset is the only way to set CODE = NONE: a step that sets it drives RST to a new level. -/
def Obligations.OnlyResetSetsCodeNone : Prop :=
  ∀ s t : State, step s = .next t → t.code = .none → s.code ≠ .none →
    ∃ (level : Bool) (rest : List Stimulus), level ≠ s.rst ∧ s.inbox = .setRst level :: rest

/-- Driving RST at the level it already has is no reset: nothing changes (R230 speaks of its release; that nothing changes
while it stays held is log entry 3's reading of R230). -/
def Obligations.DrivingRstAtItsLevelChangesNothing : Prop :=
  ∀ (s : State) (rest : List Stimulus), s.inbox = .setRst s.rst :: rest → step s = .next { s with inbox := rest }

/-- R22, R48: STATUS and OUT hold their values except on a stimulus that presents a request or drives RST, and a drive of
the lines changes them only where the strobe rises with RST released. -/
def Obligations.OutcomeHoldsBetweenRequests : Prop :=
  ∀ (s t : State) (x : Stimulus) (rest : List Stimulus), s.inbox = x :: rest → step s = .next t →
    (x.mayWriteOutcome = false → t.observe = s.observe) ∧
    (∀ valid hdr d, x = .drive valid hdr d → s.starts valid = false → t.observe = s.observe)

/-- R213, R232: the block stops on no request and on no reset: a stimulus of its lines, or time, always gives a next
state. -/
def Obligations.TheBlockNeverStops : Prop :=
  ∀ (s : State) (x : Stimulus) (rest : List Stimulus), s.inbox = x :: rest → x.ofLinesOrTime = true →
    ∃ t, step s = .next t ∧ t.inbox = rest

/-- R36, R50: a sequence of requests breaks up into its requests: after any requests at all, from any state with RST
released and the strobe low, STATUS and OUT are what the last request gives from reset. -/
def Obligations.SequenceShowsTheLastRequestAlone : Prop :=
  ∀ (requests : List (Byte × OperandLines)) (last : Byte × OperandLines) (s : State), s.rst = false →
    s.reqValid = false → s.inbox = (requests ++ [last]).flatMap pulse →
    ∃ t u, runSteps (2 * (requests.length + 1)) s = .next t ∧ exec (decodeRequest last.1 last.2) State.reset = .next u ∧
      t.observe = u.observe ∧ t.session = s.session ∧ t.returned = s.returned ∧ t.inbox = []

/-! ### The checksum (R100, R104, R112, R123, R124) -/

/-- R100: crc8 is the pseudocode of R100, run on numbers. -/
def Obligations.Crc8FollowsThePseudocode : Prop :=
  ∀ b0 b1 : Byte, (crc8 b0 b1).toNat = crcPseudocode b0.toNat b1.toNat

/-- R104: every single-bit error in an intact word group is detected. A flipped bit k of the data changes the expected
checksum by x^(k+8) mod the polynomial (x^0 shifted k+8 times), which is never zero; and of the 256 checksum bytes of any
two data bytes exactly one passes. The clause on the changed checksum is the algebra that R104 marks as general knowledge,
not in source; the others follow from R100 and R103 alone. -/
def Obligations.SingleBitErrorsAreDetected : Prop :=
  (∀ (g : WordGroup) (k : Fin 24), g.valid = true → (g.flipBit k).valid = false) ∧
  (∀ (h l : Byte) (k : Fin 16),
    crc8 (h ^^^ hiByte (BitVec.twoPow 16 k.val)) (l ^^^ loByte (BitVec.twoPow 16 k.val)) =
      crc8 h l ^^^ crcShifts (k.val + 8) 0x01#8 ∧ crcShifts (k.val + 8) 0x01#8 ≠ 0x00#8) ∧
  (∀ h l : Byte, ∃ c, (WordGroup.mk h l c).valid = true ∧ ∀ c', (WordGroup.mk h l c').valid = true → c' = c)

/-- R123: the round trip of every word: CRC8 gives the byte that makes its two bytes an intact group, and DECW of that
group ends OK with the word. -/
def Obligations.WordRoundTrip : Prop :=
  ∀ (v : Word) (s : State), ∃ t u, exec (.crc8 (hiByte v) (loByte v)) s = .next t ∧
    exec (.decw ⟨hiByte v, loByte v, t.out[0]⟩) s = .next u ∧ u.code = .ok ∧ u.w16 = v

/-- R124: a single-bit error in the group of any word makes each of the three word-group decodes end CHECKSUM_ERROR with
mask 0b000001. -/
def Obligations.WordDecodesDetectSingleBitErrors : Prop :=
  ∀ (v : Word) (k : Fin 24) (s : State),
    ∀ i ∈ [Instr.decw ((intactGroup v).flipBit k), Instr.decrdy ((intactGroup v).flipBit k),
      Instr.decbool ((intactGroup v).flipBit k)],
    ∃ t, exec i s = .next t ∧ t.code = .checksumError ∧ t.failMask = 0b000001#6

/-- R112: bytes 2..4 of every ENC1 output form a group that DECW accepts, with the argument as its word. -/
def Obligations.EncodedArgumentIsAnIntactGroup : Prop :=
  ∀ (cHi cLo aHi aLo : Byte) (s : State), ∃ t u, exec (.enc1 cHi cLo aHi aLo) s = .next t ∧
    exec (.decw ⟨t.out[2], t.out[3], t.out[4]⟩) t = .next u ∧ u.code = .ok ∧ u.w16 = aHi ++ aLo

/-! ### The float unpacker (R44, R142, R143) -/

/-- R143: every 32-bit pattern passes through DECF unchanged, whatever number it stands for. -/
def Obligations.FloatBitsPassUnchanged : Prop :=
  ∀ (x : FloatBits) (s : State), ∃ t, exec (.decf (intactChannel x)) s = .next t ∧ t.code = .ok ∧ t.f32 0 = x

/-- R44: the float of a channel is the concatenation of the words DECW gives for its two groups. -/
def Obligations.FloatIsTheTwoWords : Prop :=
  ∀ (c : Channel) (s t u v : State), exec (.decf c) s = .next t → exec (.decw c.high) s = .next u →
    exec (.decw c.low) s = .next v → t.code = .ok → t.f32 0 = u.w16 ++ v.w16

/-- How a pattern reads as a number, by its sign, exponent and fraction fields: the layout and value of R142, which marks
them as general knowledge, not in source (log entry 19, PRESUMED; the two zeros stay apart by it). -/
def Obligations.FloatReadingFollowsBinary32 : Prop :=
  (∀ x : FloatBits, floatSign x = x.getLsbD 31 ∧ floatExp x = x.extractLsb' 23 8 ∧ floatFrac x = x.extractLsb' 0 23 ∧
    ((floatExp x).toNat = 0 →
      floatValue x = .finite (floatSign x) ((floatFrac x).toNat * (2 : Rat) ^ (-149 : Int))) ∧
    (1 ≤ (floatExp x).toNat → (floatExp x).toNat ≤ 254 → floatValue x = .finite (floatSign x)
      ((1 + (floatFrac x).toNat / (2 : Rat) ^ 23) * (2 : Rat) ^ (((floatExp x).toNat : Int) - 127))) ∧
    ((floatExp x).toNat = 255 → floatFrac x = 0#23 → floatValue x = .infinite (floatSign x)) ∧
    ((floatExp x).toNat = 255 → floatFrac x ≠ 0#23 → floatValue x = .nan ((floatFrac x).getLsbD 22))) ∧
  floatValue 0x43DB8C2D#32 = .finite false (14388269 / 32768)

/-! ### The assembler (R71, R72) -/

/-- R71: the line of a legal request assembles to its written form, and a line with a byte too few or too many to
nothing. -/
def Obligations.AssemblerWritesTheRequest : Prop :=
  ∀ i : Instr, legalHeader i.header = true → i.wellFormed = true →
    (AsmLine.op (mnemonicText i) i.operands).assemble = some (encode i) ∧
    ∀ bytes : List Byte, bytes.length ≠ i.operands.length → (AsmLine.op (mnemonicText i) bytes).assemble = none

/-- R71, R72: what each kind of line assembles to. `CMD cw` is ENC0 of the word's two bytes, `CMDA cw, a` is ENC1 of the
two words' bytes, `CHKW` is DECW, a command line is the command's request of R176, and `.hdr` of an illegal header is that
one byte; and whatever a line assembles to is exactly one request. That `.hdr` of a legal header assembles to nothing is
the model's choice (log entry 18). -/
def Obligations.LinesAssembleToOneRequest : Prop :=
  (∀ cw : Word, (AsmLine.cmd cw).assemble = some (encode (.enc0 (cw.extractLsb' 8 8) (cw.extractLsb' 0 8)))) ∧
  (∀ cw a : Word, (AsmLine.cmda cw a).assemble =
    some (encode (.enc1 (cw.extractLsb' 8 8) (cw.extractLsb' 0 8) (a.extractLsb' 8 8) (a.extractLsb' 0 8)))) ∧
  (∀ b0 b1 b2 : Byte, (AsmLine.chkw b0 b1 b2).assemble = some (encode (.decw ⟨b0, b1, b2⟩))) ∧
  (∀ c : Command, (AsmLine.command c).assemble = some (encode c.request) ∧
    (AsmLine.command c).assemble =
      (match c.argument with | none => AsmLine.cmd c.word | some a => AsmLine.cmda c.word a).assemble) ∧
  (∀ hdr : Byte, (legalHeader hdr = false → (AsmLine.hdr hdr).assemble = some [hdr]) ∧
    (legalHeader hdr = true → (AsmLine.hdr hdr).assemble = none)) ∧
  ∀ (line : AsmLine) (bytes : List Byte), line.assemble = some bytes →
    ∃ i : Instr, i.wellFormed = true ∧ bytes = encode i

/-- R176: the name each command has as a line, and the argument it takes. The text of an argument (what readWord and readFlag
accept) is log entry 18. -/
def Obligations.CommandNamesReadAsTheirCommands : Prop :=
  readLine "FW_VERSION" [] = some (.command .fwVersion) ∧ readLine "TRIGGER" [] = some (.command .trigger) ∧
  readLine "STOP" [] = some (.command .stop) ∧ readLine "DATA_READY" [] = some (.command .dataReady) ∧
  readLine "MEASURE" [] = some (.command .measure) ∧ readLine "GET_ASC" [] = some (.command .getAsc) ∧
  readLine "SOFT_RESET" [] = some (.command .softReset) ∧ readLine "GET_ALT" [] = some (.command .getAlt) ∧
  readLine "GET_TOFF" [] = some (.command .getToff) ∧ readLine "GET_FRC" [] = some (.command .getFrc) ∧
  (∀ (x : List Char) (v : Word), readWord x = some v →
    readLine "SET_INTERVAL" [x] = some (.command (.setInterval v)) ∧
    readLine "SET_ALT" [x] = some (.command (.setAlt v)) ∧ readLine "SET_TOFF" [x] = some (.command (.setToff v)) ∧
    readLine "SET_FRC" [x] = some (.command (.setFrc v))) ∧
  ∀ (x : List Char) (f : Bool), readFlag x = some f → readLine "SET_ASC" [x] = some (.command (.setAsc f))

/-! ### The host (R160, R176, R206 to R208, R233, R235, R236, R240) -/

/-- R176: the request that encodes each of the 15 commands, the response it has, and the decode that response takes. -/
def Obligations.CatalogueFollowsTheTable : Prop :=
  (Command.fwVersion.request = .enc0 0xD1 0x00 ∧ Command.fwVersion.response = .word) ∧
  (Command.trigger.request = .enc1 0x00 0x10 0x00 0x00 ∧ Command.trigger.response = .none) ∧
  (Command.stop.request = .enc0 0x01 0x01 ∧ Command.stop.response = .none) ∧
  (∀ a : Word, (Command.setInterval a).request = .enc1 0x46 0x00 (hiByte a) (loByte a) ∧
    (Command.setInterval a).response = .none) ∧
  (Command.dataReady.request = .enc0 0x02 0x02 ∧ Command.dataReady.response = .ready) ∧
  (Command.measure.request = .enc0 0x03 0x00 ∧ Command.measure.response = .measurement) ∧
  (Command.getAsc.request = .enc0 0x53 0x06 ∧ Command.getAsc.response = .bool) ∧
  ((Command.setAsc true).request = .enc1 0x53 0x06 0x00 0x01 ∧ (Command.setAsc true).response = .bool) ∧
  ((Command.setAsc false).request = .enc1 0x53 0x06 0x00 0x00 ∧ (Command.setAsc false).response = .bool) ∧
  (Command.softReset.request = .enc0 0xD3 0x04 ∧ Command.softReset.response = .none) ∧
  (Command.getAlt.request = .enc0 0x51 0x02 ∧ Command.getAlt.response = .word) ∧
  (∀ a : Word, (Command.setAlt a).request = .enc1 0x51 0x02 (hiByte a) (loByte a) ∧
    (Command.setAlt a).response = .none) ∧
  (Command.getToff.request = .enc0 0x54 0x03 ∧ Command.getToff.response = .word) ∧
  (∀ a : Word, (Command.setToff a).request = .enc1 0x54 0x03 (hiByte a) (loByte a) ∧
    (Command.setToff a).response = .none) ∧
  (Command.getFrc.request = .enc0 0x52 0x04 ∧ Command.getFrc.response = .word) ∧
  (∀ a : Word, (Command.setFrc a).request = .enc1 0x52 0x04 (hiByte a) (loByte a) ∧
    (Command.setFrc a).response = .none) ∧
  (Response.none.length = 0 ∧ Response.none.header = none) ∧
  (∀ d, ∃ hdr, Response.word.length = 3 ∧ Response.word.header = some hdr ∧ decodeRequest hdr d = .decw (groupAt d 0)) ∧
  (∀ d, ∃ hdr, Response.ready.length = 3 ∧ Response.ready.header = some hdr ∧
    decodeRequest hdr d = .decrdy (groupAt d 0)) ∧
  (∀ d, ∃ hdr, Response.bool.length = 3 ∧ Response.bool.header = some hdr ∧
    decodeRequest hdr d = .decbool (groupAt d 0)) ∧
  (∀ d, ∃ hdr, Response.measurement.length = 18 ∧ Response.measurement.header = some hdr ∧
    decodeRequest hdr d = .decm (channelAt d 0) (channelAt d 1) (channelAt d 2)) ∧
  ∀ c : Command, c.response.length ≠ 6

/-- R160, R176: a called command makes the block build its frame, which ends OK, and the host writes exactly that frame
to the transport. The model's choices: the encode is a whole strobe pulse, from whatever level REQ_VALID has (log entry 7);
the encode and the write call are one step, and no value stands returned while the call runs (log entry 21). -/
def Obligations.CalledCommandWritesItsFrame : Prop :=
  ∀ (c : Command) (s : State) (rest : List Stimulus), s.session = .ready → s.rst = false → s.inbox = .call c :: rest →
    ∃ t, step s = .next t ∧ t.code = .ok ∧ t.resultBytes = c.frame ∧
      t.session.outstanding = some (.write c.frame) ∧ t.session = .writing c c.frame ∧ t.returned = none ∧
      t.inbox = rest

/-- R208: a failed write returns CommunicationError, and no read is attempted. That the session then has no call
outstanding is log entry 21, deduced from R209. -/
def Obligations.WriteFailureReturnsCommunicationError : Prop :=
  ∀ (c : Command) (frame : List Byte) (s : State) (rest : List Stimulus), s.session = .writing c frame →
    s.inbox = .written false :: rest →
    ∃ t, step s = .next t ∧ t.returned = some (.error .communicationError) ∧ t.session.outstanding = none ∧
      t.observe = s.observe ∧ t.inbox = rest

/-- R206, R208, R233: an open that fails returns IoError and leaves no session, and a read that fails returns
CommunicationError. That the session is ready after a failed read is log entry 21, deduced from R209. -/
def Obligations.OpenAndReadFailuresReturnTheirErrors : Prop :=
  (∀ (bus : Nat) (s : State) (rest : List Stimulus), s.session = .opening bus → s.inbox = .opened false :: rest →
    ∃ t, step s = .next t ∧ t.session = .closed ∧ t.returned = some (.error .ioError) ∧ t.observe = s.observe) ∧
  (∀ (c : Command) (s : State) (rest : List Stimulus), s.session = .reading c → s.inbox = .readFailed :: rest →
    ∃ t, step s = .next t ∧ t.session = .ready ∧ t.returned = some (.error .communicationError) ∧
      t.observe = s.observe)

/-- R235: the host waits at least the settle delay, whatever pieces the time comes in: it settles on while less has
passed. R235 gives this lower bound only: that the host has gone on at the first passing of time with which as much has
passed, and that a delay of 0 still takes one passing, is the model's choice (log entry 12). -/
def Obligations.HostWaitsOutTheSettleDelay : Prop :=
  ∀ (c : Command) (pieces : List Nat) (s : State), s.session = .settling c 0 → s.inbox = pieces.map .elapsed →
    ∃ t, runSteps pieces.length s = .next t ∧ t.observe = s.observe ∧
      t.session =
        if pieces = [] ∨ pieces.sum < Config.settleDelayMs c then .settling c pieces.sum
        else if c.response = .none then .ready else .reading c

/-- R240: a read that the transport never answers blocks the call: no other stimulus gets the host past it. -/
def Obligations.UnansweredReadBlocksTheCall : Prop :=
  ∀ (n : Nat) (c : Command) (s t : State), s.session = .reading c → (∀ x ∈ s.inbox, x.answersRead = false) →
    runSteps n s = .next t → t.session = .reading c

/-- R208, R176: one whole command, from a ready session: the host returns the value the response stands for, or
ChecksumError where a group of it fails, and unit for a command without a response; the session is ready again. The
model's choices: the host's requests are whole strobe pulses (log entry 7), it goes on at the first passing of time that
reaches the delay (12), read answers with 18 bytes (13), and its moves are cut into steps at the transport calls (21). -/
def Obligations.CommandReturnsItsResult : Prop :=
  ∀ (c : Command) (ms : Nat) (bytes : OperandLines) (s : State), s.session = .ready → s.rst = false →
    Config.settleDelayMs c ≤ ms →
    (c.response = .none → s.inbox = [.call c, .written true, .elapsed ms] →
      ∃ t, runSteps 3 s = .next t ∧ t.returned = some .unit ∧ t.session = .ready) ∧
    (c.response ≠ .none → s.inbox = [.call c, .written true, .elapsed ms, .readDone bytes] →
      ∃ t, runSteps 4 s = .next t ∧ t.returned = some (c.response.expected bytes) ∧ t.session = .ready)

/-- The model's refusal of spec/93_implementation_defined.md I5 (R213, R236; log entry 9): while a transport call is
outstanding (open, write, sleep or read), a second operation of the caller, be it a command, an open or a drop, has no
step. -/
def Obligations.SecondCallBeforeReturnIsRefused : Prop :=
  ∀ (s : State) (x : Stimulus) (rest : List Stimulus), s.inbox = x :: rest →
    (∃ c, x = .call c) ∨ (∃ bus, x = .openBus bus) ∨ x = .dropHandle →
    (∃ bus, s.session = .opening bus) ∨ (∃ c frame, s.session = .writing c frame) ∨
      (∃ c w, s.session = .settling c w) ∨ (∃ c, s.session = .reading c) →
    step s = .refused .concurrentOperation

/-- R233: a session's life. The host opens the transport at the sensor's address 0x61; where open succeeds there is a
session, and the handle is returned; and dropping the handle destroys the session. That a running call has no returned
value, that a ready session has no call outstanding, and that a drop returns nothing, is log entry 21. -/
def Obligations.SessionOpensAndCloses : Prop :=
  (∀ (bus : Nat) (s : State) (rest : List Stimulus), s.session = .closed → s.inbox = .openBus bus :: rest →
    ∃ t, step s = .next t ∧ t.session = .opening bus ∧ t.session.outstanding = some (.openBus bus 0x61) ∧
      t.returned = none ∧ t.observe = s.observe ∧ t.inbox = rest) ∧
  (∀ (bus : Nat) (s : State) (rest : List Stimulus), s.session = .opening bus → s.inbox = .opened true :: rest →
    ∃ t, step s = .next t ∧ t.session = .ready ∧ t.session.outstanding = none ∧ t.returned = some .handle ∧
      t.observe = s.observe ∧ t.inbox = rest) ∧
  (∀ (s : State) (rest : List Stimulus), s.session = .ready → s.inbox = .dropHandle :: rest →
    ∃ t, step s = .next t ∧ t.session = .closed ∧ t.session.outstanding = none ∧ t.returned = s.returned ∧
      t.observe = s.observe ∧ t.inbox = rest)

/-- The model's refusals of log entry 10: before any command the transport must be open (R233), so a command or a drop with
no session has no step; and there is one requester (R213), so neither has a second session. -/
def Obligations.HostOperationsNeedTheirSession : Prop :=
  (∀ (s : State) (x : Stimulus) (rest : List Stimulus), s.session = .closed → s.inbox = x :: rest →
    (∃ c, x = .call c) ∨ x = .dropHandle → step s = .refused .noSession) ∧
  (∀ (bus : Nat) (s : State) (rest : List Stimulus), s.session = .ready → s.inbox = .openBus bus :: rest →
    step s = .refused .sessionExists)
end

