-- ==== Sys2Proof/Laws/Decode.lean ====
section
/-! SUPPORT. The decoder header by header, the lines a byte list is laid on, and the lengths of the table R62. -/

namespace Sys2Proof

/-! ### Lines -/

@[simp] theorem linesOf_getElem (bytes : List Byte) (j : Nat) (h : j < 18) :
    (linesOf bytes)[j] = bytes.getD j 0 := by simp [linesOf]

/-! ### Headers -/

theorem legalHeader_cases (hdr : Byte) (h : legalHeader hdr = true) :
    hdr = 0x01#8 ∨ hdr = 0x02#8 ∨ hdr = 0x03#8 ∨ hdr = 0x04#8 ∨ hdr = 0x05#8 ∨ hdr = 0x06#8 ∨ hdr = 0x07#8 ∨
      hdr = 0x08#8 := by
  revert hdr; decide

/-- A header selects no row exactly where R63 makes it illegal. -/
theorem headerRow_isNone (hdr : Byte) : (headerRow hdr).isNone = !legalHeader hdr := by
  revert hdr; decide

theorem operandLength_illegal (hdr : Byte) (h : legalHeader hdr = false) : operandLength hdr = 0 := by
  revert hdr; decide

theorem operandLength_crc8 : operandLength 0x01#8 = 2 := by decide
theorem operandLength_enc0 : operandLength 0x02#8 = 2 := by decide
theorem operandLength_enc1 : operandLength 0x03#8 = 4 := by decide
theorem operandLength_decw : operandLength 0x04#8 = 3 := by decide
theorem operandLength_decrdy : operandLength 0x05#8 = 3 := by decide
theorem operandLength_decbool : operandLength 0x06#8 = 3 := by decide
theorem operandLength_decf : operandLength 0x07#8 = 6 := by decide
theorem operandLength_decm : operandLength 0x08#8 = 18 := by decide

theorem operandLength_le (hdr : Byte) : operandLength hdr ≤ 18 := by
  revert hdr; decide

theorem groupCount_encode : groupCount 0x01#8 = 0 ∧ groupCount 0x02#8 = 0 ∧ groupCount 0x03#8 = 0 := by decide

theorem groupCount_decode : groupCount 0x04#8 = 1 ∧ groupCount 0x05#8 = 1 ∧ groupCount 0x06#8 = 1 ∧
    groupCount 0x07#8 = 2 ∧ groupCount 0x08#8 = 6 := by decide

theorem groupCount_illegal (hdr : Byte) (h : legalHeader hdr = false) : groupCount hdr = 0 := by
  revert hdr; decide

/-! ### The decoder at each header (R62, R63) -/

theorem decodeRequest_crc8 (d : OperandLines) : decodeRequest 0x01#8 d = .crc8 d[0] d[1] := rfl
theorem decodeRequest_enc0 (d : OperandLines) : decodeRequest 0x02#8 d = .enc0 d[0] d[1] := rfl
theorem decodeRequest_enc1 (d : OperandLines) : decodeRequest 0x03#8 d = .enc1 d[0] d[1] d[2] d[3] := rfl
theorem decodeRequest_decw (d : OperandLines) : decodeRequest 0x04#8 d = .decw (groupAt d 0) := rfl
theorem decodeRequest_decrdy (d : OperandLines) : decodeRequest 0x05#8 d = .decrdy (groupAt d 0) := rfl
theorem decodeRequest_decbool (d : OperandLines) : decodeRequest 0x06#8 d = .decbool (groupAt d 0) := rfl
theorem decodeRequest_decf (d : OperandLines) : decodeRequest 0x07#8 d = .decf (channelAt d 0) := rfl
theorem decodeRequest_decm (d : OperandLines) :
    decodeRequest 0x08#8 d = .decm (channelAt d 0) (channelAt d 1) (channelAt d 2) := rfl

theorem decodeRequest_illegal (hdr : Byte) (d : OperandLines) (h : legalHeader hdr = false) :
    decodeRequest hdr d = .illegal hdr := by
  have reserved : ∀ hdr : Byte, legalHeader hdr = false → hdrRes hdr = 0#4 →
      (hdrOp hdr).toNat = 0 ∨ 9 ≤ (hdrOp hdr).toNat := by decide
  unfold decodeRequest
  split
  · next res =>
    rcases reserved hdr h res with zero | nine
    · simp [zero]
    · split <;> first | rfl | omega
  · rfl

/-- A well-formed request is read back from the lines its operand bytes are laid on. -/
theorem decodeRequest_linesOf (i : Instr) (h : i.wellFormed = true) :
    decodeRequest i.header (linesOf i.operands) = i := by
  cases i with
  | crc8 b0 b1 => simp [Instr.header, Instr.operands, decodeRequest_crc8]
  | enc0 cHi cLo => simp [Instr.header, Instr.operands, decodeRequest_enc0]
  | enc1 cHi cLo aHi aLo => simp [Instr.header, Instr.operands, decodeRequest_enc1]
  | decw g => simp [Instr.header, Instr.operands, decodeRequest_decw, groupAt, WordGroup.bytes]
  | decrdy g => simp [Instr.header, Instr.operands, decodeRequest_decrdy, groupAt, WordGroup.bytes]
  | decbool g => simp [Instr.header, Instr.operands, decodeRequest_decbool, groupAt, WordGroup.bytes]
  | decf c =>
    simp [Instr.header, Instr.operands, decodeRequest_decf, channelAt, groupAt, Channel.bytes, WordGroup.bytes]
  | decm co2 temp rh =>
    simp [Instr.header, Instr.operands, decodeRequest_decm, channelAt, groupAt, Channel.bytes, WordGroup.bytes]
  | illegal hdr => exact decodeRequest_illegal hdr _ (by simpa [Instr.wellFormed] using h)

/-- The header of a well-formed request selects the operand length that its operand bytes have (R65). -/
theorem operandLength_header (i : Instr) (h : i.wellFormed = true) :
    operandLength i.header = i.operands.length := by
  cases i with
  | crc8 b0 b1 => exact operandLength_crc8
  | enc0 cHi cLo => exact operandLength_enc0
  | enc1 cHi cLo aHi aLo => exact operandLength_enc1
  | decw g => exact operandLength_decw
  | decrdy g => exact operandLength_decrdy
  | decbool g => exact operandLength_decbool
  | decf c => exact operandLength_decf
  | decm co2 temp rh => exact operandLength_decm
  | illegal hdr => exact operandLength_illegal hdr (by simpa [Instr.wellFormed] using h)

end Sys2Proof
end

