-- ==== Sys2Proof/Laws/State.lean ====
section
/-! SUPPORT. One lemma per field per update of State, and the fields that the composed updates leave alone. -/

namespace Sys2Proof.Machine

/-! ### report -/

@[simp] theorem State.report_status (s : State) (status : BitVec 16) (out : OutBytes) : (s.report status out).status = status := rfl
@[simp] theorem State.report_out (s : State) (status : BitVec 16) (out : OutBytes) : (s.report status out).out = out := rfl
@[simp] theorem State.report_rst (s : State) (status : BitVec 16) (out : OutBytes) : (s.report status out).rst = s.rst := rfl
@[simp] theorem State.report_reqValid (s : State) (status : BitVec 16) (out : OutBytes) : (s.report status out).reqValid = s.reqValid := rfl
@[simp] theorem State.report_hdr (s : State) (status : BitVec 16) (out : OutBytes) : (s.report status out).hdr = s.hdr := rfl
@[simp] theorem State.report_d (s : State) (status : BitVec 16) (out : OutBytes) : (s.report status out).d = s.d := rfl
@[simp] theorem State.report_session (s : State) (status : BitVec 16) (out : OutBytes) : (s.report status out).session = s.session := rfl
@[simp] theorem State.report_returned (s : State) (status : BitVec 16) (out : OutBytes) : (s.report status out).returned = s.returned := rfl
@[simp] theorem State.report_inbox (s : State) (status : BitVec 16) (out : OutBytes) : (s.report status out).inbox = s.inbox := rfl

/-! ### withLines -/

@[simp] theorem State.withLines_status (s : State) (valid : Bool) (hdr : Byte) (d : OperandLines) : (s.withLines valid hdr d).status = s.status := rfl
@[simp] theorem State.withLines_out (s : State) (valid : Bool) (hdr : Byte) (d : OperandLines) : (s.withLines valid hdr d).out = s.out := rfl
@[simp] theorem State.withLines_rst (s : State) (valid : Bool) (hdr : Byte) (d : OperandLines) : (s.withLines valid hdr d).rst = s.rst := rfl
@[simp] theorem State.withLines_reqValid (s : State) (valid : Bool) (hdr : Byte) (d : OperandLines) : (s.withLines valid hdr d).reqValid = valid := rfl
@[simp] theorem State.withLines_hdr (s : State) (valid : Bool) (hdr : Byte) (d : OperandLines) : (s.withLines valid hdr d).hdr = hdr := rfl
@[simp] theorem State.withLines_d (s : State) (valid : Bool) (hdr : Byte) (d : OperandLines) : (s.withLines valid hdr d).d = d := rfl
@[simp] theorem State.withLines_session (s : State) (valid : Bool) (hdr : Byte) (d : OperandLines) : (s.withLines valid hdr d).session = s.session := rfl
@[simp] theorem State.withLines_returned (s : State) (valid : Bool) (hdr : Byte) (d : OperandLines) : (s.withLines valid hdr d).returned = s.returned := rfl
@[simp] theorem State.withLines_inbox (s : State) (valid : Bool) (hdr : Byte) (d : OperandLines) : (s.withLines valid hdr d).inbox = s.inbox := rfl

/-! ### withRst -/

@[simp] theorem State.withRst_status (s : State) (level : Bool) : (s.withRst level).status = s.status := rfl
@[simp] theorem State.withRst_out (s : State) (level : Bool) : (s.withRst level).out = s.out := rfl
@[simp] theorem State.withRst_rst (s : State) (level : Bool) : (s.withRst level).rst = level := rfl
@[simp] theorem State.withRst_reqValid (s : State) (level : Bool) : (s.withRst level).reqValid = s.reqValid := rfl
@[simp] theorem State.withRst_hdr (s : State) (level : Bool) : (s.withRst level).hdr = s.hdr := rfl
@[simp] theorem State.withRst_d (s : State) (level : Bool) : (s.withRst level).d = s.d := rfl
@[simp] theorem State.withRst_session (s : State) (level : Bool) : (s.withRst level).session = s.session := rfl
@[simp] theorem State.withRst_returned (s : State) (level : Bool) : (s.withRst level).returned = s.returned := rfl
@[simp] theorem State.withRst_inbox (s : State) (level : Bool) : (s.withRst level).inbox = s.inbox := rfl

/-! ### withSession -/

@[simp] theorem State.withSession_status (s : State) (p : Session) : (s.withSession p).status = s.status := rfl
@[simp] theorem State.withSession_out (s : State) (p : Session) : (s.withSession p).out = s.out := rfl
@[simp] theorem State.withSession_rst (s : State) (p : Session) : (s.withSession p).rst = s.rst := rfl
@[simp] theorem State.withSession_reqValid (s : State) (p : Session) : (s.withSession p).reqValid = s.reqValid := rfl
@[simp] theorem State.withSession_hdr (s : State) (p : Session) : (s.withSession p).hdr = s.hdr := rfl
@[simp] theorem State.withSession_d (s : State) (p : Session) : (s.withSession p).d = s.d := rfl
@[simp] theorem State.withSession_session (s : State) (p : Session) : (s.withSession p).session = p := rfl
@[simp] theorem State.withSession_returned (s : State) (p : Session) : (s.withSession p).returned = s.returned := rfl
@[simp] theorem State.withSession_inbox (s : State) (p : Session) : (s.withSession p).inbox = s.inbox := rfl

/-! ### withReturned -/

@[simp] theorem State.withReturned_status (s : State) (r : Option HostResult) : (s.withReturned r).status = s.status := rfl
@[simp] theorem State.withReturned_out (s : State) (r : Option HostResult) : (s.withReturned r).out = s.out := rfl
@[simp] theorem State.withReturned_rst (s : State) (r : Option HostResult) : (s.withReturned r).rst = s.rst := rfl
@[simp] theorem State.withReturned_reqValid (s : State) (r : Option HostResult) : (s.withReturned r).reqValid = s.reqValid := rfl
@[simp] theorem State.withReturned_hdr (s : State) (r : Option HostResult) : (s.withReturned r).hdr = s.hdr := rfl
@[simp] theorem State.withReturned_d (s : State) (r : Option HostResult) : (s.withReturned r).d = s.d := rfl
@[simp] theorem State.withReturned_session (s : State) (r : Option HostResult) : (s.withReturned r).session = s.session := rfl
@[simp] theorem State.withReturned_returned (s : State) (r : Option HostResult) : (s.withReturned r).returned = r := rfl
@[simp] theorem State.withReturned_inbox (s : State) (r : Option HostResult) : (s.withReturned r).inbox = s.inbox := rfl

/-! ### withInbox -/

@[simp] theorem State.withInbox_status (s : State) (inbox : List Stimulus) : (s.withInbox inbox).status = s.status := rfl
@[simp] theorem State.withInbox_out (s : State) (inbox : List Stimulus) : (s.withInbox inbox).out = s.out := rfl
@[simp] theorem State.withInbox_rst (s : State) (inbox : List Stimulus) : (s.withInbox inbox).rst = s.rst := rfl
@[simp] theorem State.withInbox_reqValid (s : State) (inbox : List Stimulus) : (s.withInbox inbox).reqValid = s.reqValid := rfl
@[simp] theorem State.withInbox_hdr (s : State) (inbox : List Stimulus) : (s.withInbox inbox).hdr = s.hdr := rfl
@[simp] theorem State.withInbox_d (s : State) (inbox : List Stimulus) : (s.withInbox inbox).d = s.d := rfl
@[simp] theorem State.withInbox_session (s : State) (inbox : List Stimulus) : (s.withInbox inbox).session = s.session := rfl
@[simp] theorem State.withInbox_returned (s : State) (inbox : List Stimulus) : (s.withInbox inbox).returned = s.returned := rfl
@[simp] theorem State.withInbox_inbox (s : State) (inbox : List Stimulus) : (s.withInbox inbox).inbox = inbox := rfl

/-! ### complete: the fields it leaves alone -/

@[simp] theorem State.complete_rst (s : State) (op : BitVec 4) (result : List Byte) : (s.complete op result).rst = s.rst := rfl
@[simp] theorem State.complete_reqValid (s : State) (op : BitVec 4) (result : List Byte) : (s.complete op result).reqValid = s.reqValid := rfl
@[simp] theorem State.complete_hdr (s : State) (op : BitVec 4) (result : List Byte) : (s.complete op result).hdr = s.hdr := rfl
@[simp] theorem State.complete_d (s : State) (op : BitVec 4) (result : List Byte) : (s.complete op result).d = s.d := rfl
@[simp] theorem State.complete_session (s : State) (op : BitVec 4) (result : List Byte) : (s.complete op result).session = s.session := rfl
@[simp] theorem State.complete_returned (s : State) (op : BitVec 4) (result : List Byte) : (s.complete op result).returned = s.returned := rfl
@[simp] theorem State.complete_inbox (s : State) (op : BitVec 4) (result : List Byte) : (s.complete op result).inbox = s.inbox := rfl

/-! ### raiseChecksumError: the fields it leaves alone -/

@[simp] theorem State.raiseChecksumError_rst (s : State) (op : BitVec 4) (mask : BitVec 6) : (s.raiseChecksumError op mask).rst = s.rst := rfl
@[simp] theorem State.raiseChecksumError_reqValid (s : State) (op : BitVec 4) (mask : BitVec 6) : (s.raiseChecksumError op mask).reqValid = s.reqValid := rfl
@[simp] theorem State.raiseChecksumError_hdr (s : State) (op : BitVec 4) (mask : BitVec 6) : (s.raiseChecksumError op mask).hdr = s.hdr := rfl
@[simp] theorem State.raiseChecksumError_d (s : State) (op : BitVec 4) (mask : BitVec 6) : (s.raiseChecksumError op mask).d = s.d := rfl
@[simp] theorem State.raiseChecksumError_session (s : State) (op : BitVec 4) (mask : BitVec 6) : (s.raiseChecksumError op mask).session = s.session := rfl
@[simp] theorem State.raiseChecksumError_returned (s : State) (op : BitVec 4) (mask : BitVec 6) : (s.raiseChecksumError op mask).returned = s.returned := rfl
@[simp] theorem State.raiseChecksumError_inbox (s : State) (op : BitVec 4) (mask : BitVec 6) : (s.raiseChecksumError op mask).inbox = s.inbox := rfl

/-! ### raiseIllegalOp: the fields it leaves alone -/

@[simp] theorem State.raiseIllegalOp_rst (s : State) (hdr : Byte) : (s.raiseIllegalOp hdr).rst = s.rst := rfl
@[simp] theorem State.raiseIllegalOp_reqValid (s : State) (hdr : Byte) : (s.raiseIllegalOp hdr).reqValid = s.reqValid := rfl
@[simp] theorem State.raiseIllegalOp_hdr (s : State) (hdr : Byte) : (s.raiseIllegalOp hdr).hdr = s.hdr := rfl
@[simp] theorem State.raiseIllegalOp_d (s : State) (hdr : Byte) : (s.raiseIllegalOp hdr).d = s.d := rfl
@[simp] theorem State.raiseIllegalOp_session (s : State) (hdr : Byte) : (s.raiseIllegalOp hdr).session = s.session := rfl
@[simp] theorem State.raiseIllegalOp_returned (s : State) (hdr : Byte) : (s.raiseIllegalOp hdr).returned = s.returned := rfl
@[simp] theorem State.raiseIllegalOp_inbox (s : State) (hdr : Byte) : (s.raiseIllegalOp hdr).inbox = s.inbox := rfl

/-! ### clear: the fields it leaves alone -/

@[simp] theorem State.clear_rst (s : State) : (s.clear).rst = s.rst := rfl
@[simp] theorem State.clear_reqValid (s : State) : (s.clear).reqValid = s.reqValid := rfl
@[simp] theorem State.clear_hdr (s : State) : (s.clear).hdr = s.hdr := rfl
@[simp] theorem State.clear_d (s : State) : (s.clear).d = s.d := rfl
@[simp] theorem State.clear_session (s : State) : (s.clear).session = s.session := rfl
@[simp] theorem State.clear_returned (s : State) : (s.clear).returned = s.returned := rfl
@[simp] theorem State.clear_inbox (s : State) : (s.clear).inbox = s.inbox := rfl

/-! ### returning -/

@[simp] theorem State.returning_status (s : State) (r : HostResult) : (s.returning r).status = s.status := rfl
@[simp] theorem State.returning_out (s : State) (r : HostResult) : (s.returning r).out = s.out := rfl
@[simp] theorem State.returning_rst (s : State) (r : HostResult) : (s.returning r).rst = s.rst := rfl
@[simp] theorem State.returning_reqValid (s : State) (r : HostResult) : (s.returning r).reqValid = s.reqValid := rfl
@[simp] theorem State.returning_hdr (s : State) (r : HostResult) : (s.returning r).hdr = s.hdr := rfl
@[simp] theorem State.returning_d (s : State) (r : HostResult) : (s.returning r).d = s.d := rfl
@[simp] theorem State.returning_session (s : State) (r : HostResult) : (s.returning r).session = .ready := rfl
@[simp] theorem State.returning_returned (s : State) (r : HostResult) : (s.returning r).returned = some r := rfl
@[simp] theorem State.returning_inbox (s : State) (r : HostResult) : (s.returning r).inbox = s.inbox := rfl

/-! ### Two writes of the same fields -/

@[simp] theorem State.report_report (s : State) (a b : BitVec 16) (x y : OutBytes) :
    (s.report a x).report b y = s.report b y := rfl

@[simp] theorem State.withLines_withLines (s : State) (v w : Bool) (g h : Byte) (c d : OperandLines) :
    (s.withLines v g c).withLines w h d = s.withLines w h d := rfl

/-- The write of an outcome and the driving of the lines touch different fields. -/
theorem State.report_withLines (s : State) (status : BitVec 16) (out : OutBytes) (v : Bool) (h : Byte)
    (d : OperandLines) : (s.report status out).withLines v h d = (s.withLines v h d).report status out := rfl

end Sys2Proof.Machine
end

