-- ==== Sys2Proof/Laws/Registers.lean ====
section
/-! SUPPORT. The registers: STATUS and its fields, OUT and its zero fill, FAILMASK bit by bit, the checksum. -/

namespace Sys2Proof.Machine

/-! ### STATUS (R25) -/

@[simp] theorem Code.ofBits_bits (c : Code) : Code.ofBits c.bits = c := by cases c <;> rfl

theorem Code.bits_ofBits (b : BitVec 2) : (Code.ofBits b).bits = b := by
  revert b; decide

@[simp] theorem statusCode_packStatus (outLen op : BitVec 4) (mask : BitVec 6) (c : Code) :
    statusCode (packStatus outLen op mask c) = c := by
  have h : (packStatus outLen op mask c).extractLsb' 0 2 = c.bits := by
    apply BitVec.eq_of_getLsbD_eq
    intro i hi
    simp only [packStatus, BitVec.getLsbD_append, BitVec.getLsbD_extractLsb', hi, Nat.zero_add, decide_true,
      Bool.true_and, if_true]
  rw [statusCode, h, Code.ofBits_bits]

@[simp] theorem statusFailMask_packStatus (outLen op : BitVec 4) (mask : BitVec 6) (c : Code) :
    statusFailMask (packStatus outLen op mask c) = mask := by
  apply BitVec.eq_of_getLsbD_eq
  intro i hi
  have h1 : ¬ 2 + i < 2 := by omega
  have h2 : 2 + i - 2 = i := by omega
  simp only [statusFailMask, packStatus, BitVec.getLsbD_append, BitVec.getLsbD_extractLsb', hi, h1, h2, decide_true,
    Bool.true_and, if_true, if_false]

@[simp] theorem statusOp_packStatus (outLen op : BitVec 4) (mask : BitVec 6) (c : Code) :
    statusOp (packStatus outLen op mask c) = op := by
  apply BitVec.eq_of_getLsbD_eq
  intro i hi
  have h1 : ¬ 8 + i < 2 := by omega
  have h2 : ¬ 8 + i - 2 < 6 := by omega
  have h3 : 8 + i - 2 - 6 = i := by omega
  simp only [statusOp, packStatus, BitVec.getLsbD_append, BitVec.getLsbD_extractLsb', hi, h1, h2, h3, decide_true,
    Bool.true_and, if_true, if_false]

@[simp] theorem statusOutLen_packStatus (outLen op : BitVec 4) (mask : BitVec 6) (c : Code) :
    statusOutLen (packStatus outLen op mask c) = outLen := by
  apply BitVec.eq_of_getLsbD_eq
  intro i hi
  have h1 : ¬ 12 + i < 2 := by omega
  have h2 : ¬ 12 + i - 2 < 6 := by omega
  have h3 : ¬ 12 + i - 2 - 6 < 4 := by omega
  have h4 : 12 + i - 2 - 6 - 4 = i := by omega
  simp only [statusOutLen, packStatus, BitVec.getLsbD_append, BitVec.getLsbD_extractLsb', hi, h1, h2, h3, h4,
    decide_true, Bool.true_and, if_false]

/-- The four fields make up the whole register (R25: no field is hardwired). -/
theorem packStatus_fields (st : BitVec 16) :
    packStatus (statusOutLen st) (statusOp st) (statusFailMask st) (statusCode st) = st := by
  apply BitVec.eq_of_getLsbD_eq
  intro i hi
  simp only [packStatus, statusCode, Code.bits_ofBits, statusOutLen, statusOp, statusFailMask, BitVec.getLsbD_append,
    BitVec.getLsbD_extractLsb']
  have h : i < 2 ∨ (¬ i < 2 ∧ i - 2 < 6) ∨ (¬ i < 2 ∧ ¬ i - 2 < 6 ∧ i - 2 - 6 < 4) ∨
      (¬ i < 2 ∧ ¬ i - 2 < 6 ∧ ¬ i - 2 - 6 < 4 ∧ i - 2 - 6 - 4 < 4) := by omega
  rcases h with h | ⟨h1, h2⟩ | ⟨h1, h2, h3⟩ | ⟨h1, h2, h3, h4⟩
  · simp [h]
  · have e : 2 + (i - 2) = i := by omega
    simp [h1, h2, e]
  · have e : 8 + (i - 2 - 6) = i := by omega
    simp [h1, h2, h3, e]
  · have e : 12 + (i - 2 - 6 - 4) = i := by omega
    simp [h1, h2, h3, h4, e]

/-! ### OUT (R27) -/

@[simp] theorem outOf_getElem (bytes : List Byte) (j : Nat) (h : j < 12) :
    (outOf bytes)[j] = bytes.getD j 0x00#8 := by simp [outOf]

theorem outOf_zero_fill (bytes : List Byte) (j : Nat) (h : j < 12) (hb : bytes.length ≤ j) :
    (outOf bytes)[j] = 0x00#8 := by
  rw [outOf_getElem]
  simp [List.getD, List.getElem?_eq_none hb]

/-! ### FAILMASK (R29) -/

theorem failMaskOf_getLsbD (gs : List WordGroup) (k : Nat) (h : k < 6) :
    (failMaskOf gs).getLsbD k = failBit gs k := by
  obtain rfl | rfl | rfl | rfl | rfl | rfl : k = 0 ∨ k = 1 ∨ k = 2 ∨ k = 3 ∨ k = 4 ∨ k = 5 := by omega
  all_goals (simp only [failMaskOf, BitVec.getLsbD_append]; simp)

theorem failMaskOf_eq_zero_iff (gs : List WordGroup) (h : gs.length ≤ 6) :
    failMaskOf gs = 0#6 ↔ ∀ g ∈ gs, g.valid = true := by
  constructor
  · intro hz g hg
    obtain ⟨k, hk, rfl⟩ := List.mem_iff_getElem.mp hg
    have hb := failMaskOf_getLsbD gs k (by omega)
    rw [hz] at hb
    simpa [failBit, hk] using hb.symm
  · intro hv
    apply BitVec.eq_of_getLsbD_eq
    intro k hk
    rw [failMaskOf_getLsbD gs k hk]
    by_cases hl : k < gs.length
    · simp [failBit, hl, hv _ (List.getElem_mem hl)]
    · simp [failBit, hl]

/-- One group's mask (R120 to R122). -/
theorem failMaskOf_singleton (g : WordGroup) : failMaskOf [g] = if g.valid then 0b000000#6 else 0b000001#6 := by
  cases h : g.valid <;> simp [failMaskOf, failBit, h]

/-! ### The three outcomes, field by field (R200, R203, R204) -/

@[simp] theorem State.complete_code (s : State) (op : BitVec 4) (result : List Byte) :
    (s.complete op result).code = .ok := by simp [State.code, State.complete]

@[simp] theorem State.complete_failMask (s : State) (op : BitVec 4) (result : List Byte) :
    (s.complete op result).failMask = 0#6 := by simp [State.failMask, State.complete]

@[simp] theorem State.complete_op (s : State) (op : BitVec 4) (result : List Byte) :
    (s.complete op result).op = op := by simp [State.op, State.complete]

theorem State.complete_outLen (s : State) (op : BitVec 4) (result : List Byte) (h : result.length ≤ 12) :
    (s.complete op result).outLen = result.length := by simp [State.outLen, State.complete]; omega

theorem State.complete_status (s : State) (op : BitVec 4) (result : List Byte) :
    (s.complete op result).status = packStatus (BitVec.ofNat 4 result.length) op 0#6 .ok := rfl

theorem State.complete_out (s : State) (op : BitVec 4) (result : List Byte) :
    (s.complete op result).out = outOf result := rfl

@[simp] theorem State.raiseChecksumError_code (s : State) (op : BitVec 4) (mask : BitVec 6) :
    (s.raiseChecksumError op mask).code = .checksumError := by simp [State.code, State.raiseChecksumError]

@[simp] theorem State.raiseChecksumError_failMask (s : State) (op : BitVec 4) (mask : BitVec 6) :
    (s.raiseChecksumError op mask).failMask = mask := by simp [State.failMask, State.raiseChecksumError]

@[simp] theorem State.raiseChecksumError_op (s : State) (op : BitVec 4) (mask : BitVec 6) :
    (s.raiseChecksumError op mask).op = op := by simp [State.op, State.raiseChecksumError]

@[simp] theorem State.raiseChecksumError_outLen (s : State) (op : BitVec 4) (mask : BitVec 6) :
    (s.raiseChecksumError op mask).outLen = 0 := by simp [State.outLen, State.raiseChecksumError]

theorem State.raiseChecksumError_out (s : State) (op : BitVec 4) (mask : BitVec 6) :
    (s.raiseChecksumError op mask).out = outOf [] := rfl

@[simp] theorem State.raiseIllegalOp_code (s : State) (hdr : Byte) :
    (s.raiseIllegalOp hdr).code = .illegalOp := by simp [State.code, State.raiseIllegalOp]

@[simp] theorem State.raiseIllegalOp_failMask (s : State) (hdr : Byte) :
    (s.raiseIllegalOp hdr).failMask = 0#6 := by simp [State.failMask, State.raiseIllegalOp]

@[simp] theorem State.raiseIllegalOp_op (s : State) (hdr : Byte) :
    (s.raiseIllegalOp hdr).op = hdrOp hdr := by simp [State.op, State.raiseIllegalOp]

@[simp] theorem State.raiseIllegalOp_outLen (s : State) (hdr : Byte) :
    (s.raiseIllegalOp hdr).outLen = 0 := by simp [State.outLen, State.raiseIllegalOp]

theorem State.raiseIllegalOp_out (s : State) (hdr : Byte) : (s.raiseIllegalOp hdr).out = outOf [] := rfl

/-- OUT with nothing in it (R34, R203, R204). -/
theorem outOf_nil : outOf [] = #v[0, 0, 0, 0, 0, 0, 0, 0, 0, 0, 0, 0] := by decide

/-! ### The checksum (R100) -/

theorem WordGroup.valid_iff (g : WordGroup) : g.valid = true ↔ crc8 g.hi g.lo = g.chk := by
  simp [WordGroup.valid]

end Sys2Proof.Machine
end

