-- ==== Sys2Proof/Laws/Block.lean ====
section
/-! SUPPORT. What the shared operations of the block can do, said once: the decodes, exec, the lines, the host's own
requests. -/

namespace Sys2Proof.Machine

/-- A decode ends in one of two ways (R202, R203). -/
theorem State.finishDecode_cases (s : State) (op : BitVec 4) (gs : List WordGroup) (result : List Byte) :
    (failMaskOf gs = 0#6 ∧ s.finishDecode op gs result = s.complete op result) ∨
    (failMaskOf gs ≠ 0#6 ∧ s.finishDecode op gs result = s.raiseChecksumError op (failMaskOf gs)) := by
  by_cases h : failMaskOf gs = 0#6
  · exact .inl ⟨h, if_pos h⟩
  · exact .inr ⟨h, if_neg h⟩

/-- A decode writes an outcome that its arguments alone determine (R20). -/
theorem State.finishDecode_report (op : BitVec 4) (gs : List WordGroup) (result : List Byte) :
    ∃ status out, ∀ s : State, s.finishDecode op gs result = s.report status out := by
  by_cases h : failMaskOf gs = 0#6
  · exact ⟨_, _, fun s => by simp only [State.finishDecode, if_pos h]; rfl⟩
  · exact ⟨_, _, fun s => by simp only [State.finishDecode, if_neg h]; rfl⟩

/-- Every operation answers a next state, which differs from the last one in STATUS and OUT alone, and these the
request alone determines (R20, R200). -/
theorem exec_report (i : Instr) : ∃ status out, ∀ s : State, exec i s = .next (s.report status out) := by
  have dec : ∀ op gs result, ∃ status out, ∀ s : State,
      Host.Outcome.next (φ := Fault) (ρ := Refusal) (s.finishDecode op gs result) = .next (s.report status out) := by
    intro op gs result
    obtain ⟨st, o, h⟩ := State.finishDecode_report op gs result
    exact ⟨st, o, fun s => by rw [h]⟩
  cases i with
  | crc8 b0 b1 => exact ⟨_, _, fun s => rfl⟩
  | enc0 cHi cLo => exact ⟨_, _, fun s => rfl⟩
  | enc1 cHi cLo aHi aLo => exact ⟨_, _, fun s => rfl⟩
  | decw g => exact dec _ _ _
  | decrdy g => exact dec _ _ _
  | decbool g => exact dec _ _ _
  | decf c => exact dec _ _ _
  | decm co2 temp rh => exact dec _ _ _
  | illegal hdr => exact ⟨_, _, fun s => rfl⟩

/-! ### exec as one shape -/

end Sys2Proof.Machine

namespace Sys2Proof

/-- The result bytes of a legal request whose groups pass (R62). -/
def Instr.result : Instr → List Byte
  | .crc8 b0 b1 => [Machine.crc8 b0 b1]
  | .enc0 cHi cLo => Machine.frameF0 cHi cLo
  | .enc1 cHi cLo aHi aLo => Machine.frameF1 cHi cLo aHi aLo
  | .decw g => [g.hi, g.lo]
  | .decrdy g => [Machine.flagByte g.isReady]
  | .decbool g => [Machine.flagByte g.isTrue]
  | .decf c => c.dataBytes
  | .decm co2 temp rh => co2.dataBytes ++ temp.dataBytes ++ rh.dataBytes
  | .illegal _ => []

end Sys2Proof

namespace Sys2Proof.Machine

/-- Every legal operation is a decode of its groups (none, for CRC8, ENC0 and ENC1) with its result bytes. -/
theorem exec_legal (i : Instr) (s : State) (h : ∀ hdr, i ≠ .illegal hdr) :
    exec i s = .next (s.finishDecode (hdrOp i.header) i.groups i.result) := by
  have nogroups : failMaskOf [] = 0#6 := by decide
  cases i with
  | crc8 | enc0 | enc1 => simp only [Instr.groups, State.finishDecode, nogroups, if_true]; rfl
  | decw | decrdy | decbool | decf | decm => rfl
  | illegal hdr => exact absurd rfl (h hdr)

/-- The group a decoded request checks at place k is the group of the lines at that place (R29, R46). -/
theorem decodeRequest_groups (hdr : Byte) (d : OperandLines) (k : Fin 6) :
    (decodeRequest hdr d).groups[k.val]? = if k.val < groupCount hdr then some (groupAt d k) else none := by
  cases legal : legalHeader hdr with
  | false => simp [decodeRequest_illegal _ _ legal, groupCount_illegal _ legal, Instr.groups]
  | true =>
    obtain ⟨e1, e2, e3⟩ := groupCount_encode
    obtain ⟨g4, g5, g6, g7, g8⟩ := groupCount_decode
    have place : k = 0 ∨ k = 1 ∨ k = 2 ∨ k = 3 ∨ k = 4 ∨ k = 5 := by omega
    rcases legalHeader_cases hdr legal with rfl | rfl | rfl | rfl | rfl | rfl | rfl | rfl
    · rw [e1]; rfl
    · rw [e2]; rfl
    · rw [e3]; rfl
    · rw [g4]; rcases place with rfl | rfl | rfl | rfl | rfl | rfl <;> rfl
    · rw [g5]; rcases place with rfl | rfl | rfl | rfl | rfl | rfl <;> rfl
    · rw [g6]; rcases place with rfl | rfl | rfl | rfl | rfl | rfl <;> rfl
    · rw [g7]; rcases place with rfl | rfl | rfl | rfl | rfl | rfl <;> rfl
    · rw [g8]; rcases place with rfl | rfl | rfl | rfl | rfl | rfl <;> rfl

/-- A decoded request has at most six groups (R69). -/
theorem groups_length_le (i : Instr) : i.groups.length ≤ 6 := by
  cases i <;> simp [Instr.groups, Channel.groups]

/-! ### The host's requests and the lines -/

/-- The host's own request (R160): a fault while RST is held, else one exec between two drives of the lines. -/
theorem issue_cases (hdr : Byte) (d : OperandLines) (s : State) (k : State → Host.Outcome State Fault Refusal) :
    (s.rst = true ∧ issue hdr d s k = .fault .requestWhileRstHeld) ∨
    (s.rst = false ∧ ∃ t, exec (decodeRequest hdr d) (s.withLines true hdr d) = .next t ∧
      issue hdr d s k = k (t.withLines false hdr d)) := by
  cases h : s.rst with
  | true => exact .inl ⟨rfl, by simp [issue, h]⟩
  | false =>
    obtain ⟨st, o, e⟩ := exec_report (decodeRequest hdr d)
    exact .inr ⟨rfl, _, e _, by simp [issue, h, runRequest, onNext, e]⟩

/-- The lines driven (R61, R230): one exec where the strobe rises and RST is released, and no more than the lines'
new levels otherwise. -/
theorem driveLines_cases (valid : Bool) (hdr : Byte) (d : OperandLines) (s : State) :
    (s.starts valid = true ∧
      driveLines valid hdr d s = exec (decodeRequest hdr d) (s.withLines valid hdr d)) ∨
    (s.starts valid = false ∧ driveLines valid hdr d s = .next (s.withLines valid hdr d)) := by
  cases h : s.starts valid with
  | true => exact .inl ⟨rfl, by simp [driveLines, h, runRequest]⟩
  | false => exact .inr ⟨rfl, by simp [driveLines, h]⟩

/-- RST driven (R230): the outcome registers are cleared, or kept, and nothing but them and RST changes. -/
theorem driveRst_cases (level : Bool) (s : State) :
    (level = s.rst ∧ driveRst level s = .next s) ∨
    (level ≠ s.rst ∧ driveRst level s = .next (s.clear.withRst level)) ∨
    (level = true ∧ s.rst = false ∧ driveRst level s = .next (s.withRst level)) := by
  cases level <;> cases h : s.rst
  · exact .inl ⟨rfl, by simp [driveRst, h]⟩
  · exact .inr (.inl ⟨by simp, by simp [driveRst, h]⟩)
  · cases hc : Config.clearsWhileRstHeld
    · exact .inr (.inr ⟨rfl, rfl, by simp [driveRst, h, hc]⟩)
    · exact .inr (.inl ⟨by simp, by simp [driveRst, h, hc]⟩)
  · exact .inl ⟨rfl, by simp [driveRst, h]⟩

end Sys2Proof.Machine
end

