-- ==== Sys2Proof/Laws/PerInstr.lean ====
section
/-! SUPPORT. The written length of every request (spec/30_encoding.md R65): one header byte and the operand bytes that
its row of R62 counts. -/

namespace Sys2Proof.Laws.WrittenLength

/-- The written form of a well-formed request has 1 + N bytes, N from the header alone. -/
def Statement (i : Instr) : Prop := i.wellFormed = true → (encode i).length = 1 + operandLength i.header

/-- The statement, from the length of the operand bytes. -/
theorem of_wellFormed (i : Instr) : Statement i := fun h => by
  rw [operandLength_header i h, encode, List.length_cons, Nat.add_comm]

theorem crc8 (b0 b1 : Byte) : Statement (.crc8 b0 b1) := of_wellFormed _
theorem enc0 (cHi cLo : Byte) : Statement (.enc0 cHi cLo) := of_wellFormed _
theorem enc1 (cHi cLo aHi aLo : Byte) : Statement (.enc1 cHi cLo aHi aLo) := of_wellFormed _
theorem decw (g : WordGroup) : Statement (.decw g) := of_wellFormed _
theorem decrdy (g : WordGroup) : Statement (.decrdy g) := of_wellFormed _
theorem decbool (g : WordGroup) : Statement (.decbool g) := of_wellFormed _
theorem decf (c : Channel) : Statement (.decf c) := of_wellFormed _
theorem decm (co2 temp rh : Channel) : Statement (.decm co2 temp rh) := of_wellFormed _
theorem illegal (hdr : Byte) : Statement (.illegal hdr) := of_wellFormed _

end Sys2Proof.Laws.WrittenLength
end

