-- ==== Sys2Proof/Laws/Step.lean ====
section
/-! SUPPORT. The step and runs of steps, one stimulus at a time. -/

namespace Sys2Proof.Machine

theorem step_nil (s : State) (h : s.inbox = []) : step s = .next s := by simp [step, h]

theorem step_cons (s : State) (x : Stimulus) (rest : List Stimulus) (h : s.inbox = x :: rest) :
    step s = react x (s.withInbox rest) := by simp [step, h]

theorem runSteps_zero (s : State) : runSteps 0 s = .next s := rfl

theorem runSteps_succ_next (n : Nat) (s t : State) (h : step s = .next t) :
    runSteps (n + 1) s = runSteps n t := by
  have core_step : Sys2Proof.core.step s = .next t := h
  simp only [runSteps, Host.Core.run, core_step]
  rfl

theorem runSteps_succ_fault (n : Nat) (s : State) (f : Fault) (h : step s = .fault f) :
    runSteps (n + 1) s = .fault f := by
  have core_step : Sys2Proof.core.step s = .fault f := h
  simp only [runSteps, Host.Core.run, core_step]
  rfl

theorem runSteps_succ_refused (n : Nat) (s : State) (r : Refusal) (h : step s = .refused r) :
    runSteps (n + 1) s = .refused r := by
  have core_step : Sys2Proof.core.step s = .refused r := h
  simp only [runSteps, Host.Core.run, core_step]
  rfl

/-- What a request leaves alone (R20). -/
theorem State.sameElsewhere_report (s : State) (status : BitVec 16) (out : OutBytes) :
    s.SameElsewhere (s.report status out) := ⟨rfl, rfl, rfl, rfl, rfl, rfl, rfl⟩

end Sys2Proof.Machine
end

