-- ==== Sys2Proof/Tests/Slice0.lean ====
section
/-! SUPPORT. Tests on fixed values: words written out from R60 and R62, vectors of spec/95_test_vectors.md (named by
their section), and a witness for the hypotheses of each statement that has some. -/

namespace Sys2Proof.Tests

-- Each kernel evaluation would otherwise hold a thread of its own.
set_option Elab.async false

open Sys2Proof.Machine

/-! ### Helpers -/

/-- A state whose registers hold an earlier request's outcome, not the reset values. -/
def dirty : State :=
  { State.reset with status := 0x2401#16, out := #v[0x12, 0x34, 0, 0, 0, 0, 0, 0, 0, 0, 0, 0] }

/-- STATUS and OUT after a request. -/
def shown (i : Instr) : Option (BitVec 16 × OutBytes) :=
  match exec i dirty with
  | .next t => some t.observe
  | .fault _ => none
  | .refused _ => none

/-- The next state of one step. -/
def after (s : State) : Option State :=
  match step s with
  | .next t => some t
  | .fault _ => none
  | .refused _ => none

/-- Twelve zero bytes. -/
def zeros : OutBytes := #v[0, 0, 0, 0, 0, 0, 0, 0, 0, 0, 0, 0]

/-- The measurement M of section 2.8. -/
def measurementM : List Byte :=
  [0x43, 0xDB, 0xCB, 0x8C, 0x2D, 0xDC, 0x41, 0xC8, 0x02, 0x00, 0x00, 0x81, 0x42, 0x48, 0x55, 0x00, 0x00, 0x81]

/-! ### WellFormed: the one check, and a term it refuses -/

theorem test_wellFormed_refuses_legal_header : (Instr.illegal 0x04#8).wellFormed = false := by decide
theorem test_wellFormed_admits_reserved_header : (Instr.illegal 0x14#8).wellFormed = true := by decide

/-! ### Decode: words written bit by bit from R60 and R62 (RES in bits 7..4, OP in bits 3..0) -/

theorem test_decode_crc8 : decode [0b00000001, 0xBE, 0xEF] = .ok (.crc8 0xBE 0xEF, []) := by decide
theorem test_decode_enc0 : decode [0b00000010, 0xD1, 0x00] = .ok (.enc0 0xD1 0x00, []) := by decide
theorem test_decode_enc1 :
    decode [0b00000011, 0x46, 0x00, 0x12, 0x34, 0x99] = .ok (.enc1 0x46 0x00 0x12 0x34, [0x99]) := by decide
theorem test_decode_decw : decode [0b00000100, 0x12, 0x34, 0x37] = .ok (.decw ⟨0x12, 0x34, 0x37⟩, []) := by decide
theorem test_decode_decrdy : decode [0b00000101, 0x00, 0x01, 0xB0] = .ok (.decrdy ⟨0x00, 0x01, 0xB0⟩, []) := by decide
theorem test_decode_decbool : decode [0b00000110, 0x01, 0x00, 0x75] = .ok (.decbool ⟨0x01, 0x00, 0x75⟩, []) := by decide
theorem test_decode_decf : decode [0b00000111, 0x43, 0xDB, 0xCB, 0x8C, 0x2D, 0xDC] =
    .ok (.decf ⟨⟨0x43, 0xDB, 0xCB⟩, ⟨0x8C, 0x2D, 0xDC⟩⟩, []) := by decide
theorem test_decode_decm : decode (0b00001000 :: measurementM) =
    .ok (.decm ⟨⟨0x43, 0xDB, 0xCB⟩, ⟨0x8C, 0x2D, 0xDC⟩⟩ ⟨⟨0x41, 0xC8, 0x02⟩, ⟨0x00, 0x00, 0x81⟩⟩
      ⟨⟨0x42, 0x48, 0x55⟩, ⟨0x00, 0x00, 0x81⟩⟩, []) := by decide
theorem test_decode_illegal_res : decode [0b00010100, 0x12] = .ok (.illegal 0x14, [0x12]) := by decide
theorem test_decode_illegal_op : decode [0b00001001] = .ok (.illegal 0x09, []) := by decide
theorem test_decode_rejects_truncated : decode [0x04, 0x12, 0x34] = .error (.truncated 3 2) := by decide
theorem test_decode_rejects_nothing : decode [] = .error .noHeader := by decide
theorem test_encode_decf : encode (.decf ⟨⟨0x43, 0xDB, 0xCB⟩, ⟨0x8C, 0x2D, 0xDC⟩⟩) =
    [0x07, 0x43, 0xDB, 0xCB, 0x8C, 0x2D, 0xDC] := by decide

/-- The table numbers the second byte as bits 15..8. -/
theorem test_decodeTableWord : decodeTableWord 24 0xEFBE01 = some (.crc8 0xBE 0xEF) := by decide

/-! ### The operations (sections 2.1 to 2.9) -/

theorem test_crc8 : shown (.crc8 0xBE 0xEF) = some (0x1101, #v[0x92, 0, 0, 0, 0, 0, 0, 0, 0, 0, 0, 0]) := by decide +kernel
theorem test_crc8_L1_1b : crc8 0x01 0x01 = 0x44#8 := by decide +kernel
theorem test_enc0 : shown (.enc0 0xD1 0x00) = some (0x2201, #v[0xD1, 0, 0, 0, 0, 0, 0, 0, 0, 0, 0, 0]) := by decide
theorem test_enc1 : shown (.enc1 0x51 0x02 0x12 0x34) =
    some (0x5301, #v[0x51, 0x02, 0x12, 0x34, 0x37, 0, 0, 0, 0, 0, 0, 0]) := by decide +kernel
theorem test_enc1_zero_checksum : shown (.enc1 0x52 0x04 0xFF 0x00) =
    some (0x5301, #v[0x52, 0x04, 0xFF, 0x00, 0x00, 0, 0, 0, 0, 0, 0, 0]) := by decide +kernel
theorem test_decw : shown (.decw ⟨0x03, 0x66, 0xB1⟩) =
    some (0x2401, #v[0x03, 0x66, 0, 0, 0, 0, 0, 0, 0, 0, 0, 0]) := by decide +kernel
theorem test_decw_fails : shown (.decw ⟨0x13, 0x34, 0x37⟩) = some (0x0406, zeros) := by decide +kernel
theorem test_decrdy_high_byte_ignored : shown (.decrdy ⟨0x01, 0x01, 0x44⟩) =
    some (0x1501, #v[0x01, 0, 0, 0, 0, 0, 0, 0, 0, 0, 0, 0]) := by decide +kernel
theorem test_decrdy_two_is_false : shown (.decrdy ⟨0x00, 0x02, 0xE3⟩) = some (0x1501, zeros) := by decide +kernel
theorem test_decbool_two_is_true : shown (.decbool ⟨0x00, 0x02, 0xE3⟩) =
    some (0x1601, #v[0x01, 0, 0, 0, 0, 0, 0, 0, 0, 0, 0, 0]) := by decide +kernel
theorem test_decbool_low_byte_zero : shown (.decbool ⟨0x01, 0x00, 0x75⟩) = some (0x1601, zeros) := by decide +kernel
theorem test_decf : shown (.decf ⟨⟨0x00, 0x00, 0x81⟩, ⟨0x3F, 0x80, 0xD0⟩⟩) =
    some (0x4701, #v[0, 0, 0x3F, 0x80, 0, 0, 0, 0, 0, 0, 0, 0]) := by decide +kernel
theorem test_decf_source_fixture : shown (.decf ⟨⟨0x43, 0xDB, 0xCB⟩, ⟨0x8C, 0x2D, 0xF0⟩⟩) =
    some (0x070A, zeros) := by decide +kernel
theorem test_decm : shown (decodeRequest 0x08 (linesOf measurementM)) =
    some (0xC801, #v[0x43, 0xDB, 0x8C, 0x2D, 0x41, 0xC8, 0x00, 0x00, 0x42, 0x48, 0x00, 0x00]) := by decide +kernel
theorem test_decm_two_groups_fail :
    shown (decodeRequest 0x08 (linesOf ((measurementM.set 5 0xDD).set 12 0xC2))) = some (0x084A, zeros) := by decide +kernel
theorem test_illegal_op : shown (.illegal 0x0F) = some (0x0F03, zeros) := by decide
theorem test_illegal_res : shown (.illegal 0xF1) = some (0x0103, zeros) := by decide

/-! ### Numbers (section 2.7, rule R142) -/

theorem test_float_minus_two : floatValue 0xC0000000 = .finite true 2 := by decide
theorem test_float_smallest_subnormal : floatValue 0x00000001 = .finite false (mkRat 1 (2 ^ 149)) := by decide
theorem test_float_minus_infinity : floatValue 0xFF800000 = .infinite true := by decide
theorem test_float_quiet_nan : floatValue 0x7FC00000 = .nan true := by decide

/-! ### Reset, the lines and the step (section 2.10; R61, R230) -/

theorem test_reset : State.reset.observe = (0x0000, zeros) := by decide

/-- The first request after reset (R232). -/
theorem test_first_request : (after (State.reset.withFetchWord 24 0xEFBE01)).map State.observe =
    some (0x1101, #v[0x92, 0, 0, 0, 0, 0, 0, 0, 0, 0, 0, 0]) := by decide +kernel

/-- A strobe held high starts no second step (R61). -/
theorem test_held_strobe : (after ((dirty.withLines true 0 (linesOf [])).withInbox
    [.drive true 0x0F (linesOf [])])).map State.observe = some dirty.observe := by decide

/-- A strobe that rises while RST is held leaves no trace (R230). -/
theorem test_strobe_in_reset : (after ((dirty.withRst true).withInbox [.drive true 0x0F (linesOf [])])).map
    State.observe = some dirty.observe := by decide

/-- RST released (R230). -/
theorem test_release : (after ((dirty.withRst true).withInbox [.setRst false])).map State.observe =
    some (0x0000, zeros) := by decide

/-! ### The host (R164, R168, R171, R207, R208, R233) -/

theorem test_frame_setInterval : (Command.setInterval 2).frame = [0x46, 0x00, 0x00, 0x02, 0xE3] := by decide +kernel
theorem test_frame_setAsc : (Command.setAsc true).frame = [0x53, 0x06, 0x00, 0x01, 0xB0] := by decide +kernel
theorem test_frame_setAlt : (Command.setAlt 100).frame = [0x51, 0x02, 0x00, 0x64, 0xFE] := by decide +kernel
theorem test_frame_stop : Command.stop.frame = [0x01, 0x01] := by decide

/-- The host opens the transport at address 0x61. -/
theorem test_open : (after (State.reset.withInbox [.openBus 1])).map (·.session.outstanding) =
    some (some (.openBus 1 0x61)) := by decide

/-- A called command is written to the transport. -/
theorem test_call : (after ((dirty.withSession .ready).withInbox [.call (.setInterval 2)])).map
    (·.session.outstanding) = some (some (.write [0x46, 0x00, 0x00, 0x02, 0xE3])) := by decide +kernel

/-- A response read and decoded (R161: `03 66 B1` is version 0x0366). -/
theorem test_read : (after ((dirty.withSession (.reading .fwVersion)).withInbox
    [.readDone (linesOf [0x03, 0x66, 0xB1])])).map State.returned = some (some (.word 0x0366)) := by decide +kernel

/-- A command with no session is refused by name. -/
theorem test_call_without_session : step (State.reset.withInbox [.call .measure]) = .refused .noSession := rfl

/-! ### The assembler (R71, R72) -/

theorem test_assemble_crc8 : assembleText "CRC8 0x00, 0x00".toList = some [0x01, 0x00, 0x00] := by decide
theorem test_assemble_hdr : assembleText ".hdr 0x14".toList = some [0x14] := by decide
theorem test_assemble_cmda : assembleText "CMDA 0x4600, 0x0002".toList = some [0x03, 0x46, 0x00, 0x00, 0x02] := by decide
theorem test_assemble_setInterval : assembleText "SET_INTERVAL 2".toList = some [0x03, 0x46, 0x00, 0x00, 0x02] := by
  decide
theorem test_assemble_wrong_count : assembleText "DECW 0x12, 0x34".toList = none := by decide
theorem test_asmText : asmText (.decw ⟨0x12, 0x34, 0x37⟩) = "DECW 0x12, 0x34, 0x37".toList := by decide

/-! ### Witnesses: the hypotheses of each statement are met together -/

theorem witness_ReleasingRstResetsTheBlock : ∃ (s : State) (rest : List Stimulus),
    s.rst = true ∧ s.inbox = .setRst false :: rest := ⟨(dirty.withRst true).withInbox [.setRst false], [], by decide⟩

theorem witness_AssertingRstClearsOrKeeps : ∃ (s : State) (rest : List Stimulus),
    s.rst = false ∧ s.inbox = .setRst true :: rest := ⟨dirty.withInbox [.setRst true], [], by decide⟩

theorem witness_RisingStrobeRunsDecodedRequest : ∃ (s : State) (hdr : Byte) (d : OperandLines) (rest : List Stimulus),
    s.rst = false ∧ s.reqValid = false ∧ s.inbox = .drive true hdr d :: rest :=
  ⟨dirty.withInbox [.drive true 0x04 (linesOf [0x12, 0x34, 0x37])], _, _, _, rfl, rfl, rfl⟩

theorem witness_WrittenRequestRunsAsItself : ∃ (s : State) (i : Instr) (rest : List Stimulus),
    i.wellFormed = true ∧ s.rst = false ∧ s.reqValid = false ∧
      s.inbox = .drive true i.header (linesOf i.operands) :: rest :=
  ⟨dirty.withInbox [.drive true (Instr.enc0 0xD1 0x00).header (linesOf (Instr.enc0 0xD1 0x00).operands)],
    .enc0 0xD1 0x00, [], rfl, rfl, rfl, rfl⟩

/-- One state for each of the three alternatives: a low strobe, a held one, RST held. -/
theorem witness_NoStepWithoutRisingStrobe :
    (∃ (s : State) (d : OperandLines), s.reqValid = true ∧ s.rst = false ∧ s.inbox = [.drive false 0x04 d]) ∧
    (∃ (s : State) (d : OperandLines), s.reqValid = true ∧ s.rst = false ∧ s.inbox = [.drive true 0x04 d]) ∧
    (∃ (s : State) (d : OperandLines), s.reqValid = false ∧ s.rst = true ∧ s.inbox = [.drive true 0x04 d]) :=
  ⟨⟨(dirty.withLines true 0x04 (linesOf [])).withInbox [.drive false 0x04 (linesOf [])], _, rfl, rfl, rfl⟩,
    ⟨(dirty.withLines true 0x04 (linesOf [])).withInbox [.drive true 0x04 (linesOf [])], _, rfl, rfl, rfl⟩,
    ⟨(dirty.withRst true).withInbox [.drive true 0x04 (linesOf [])], _, rfl, rfl, rfl⟩⟩

theorem witness_NothingHappensByItself : ∃ s : State, s.inbox = [] := ⟨dirty, rfl⟩

theorem witness_DecodeOfEncodeIsTheRequest : ∃ i : Instr, i.wellFormed = true := ⟨.illegal 0x14, by decide⟩

theorem witness_EncodeOfDecodeIsTheBytes : ∃ (bytes rest : List Byte) (i : Instr), decode bytes = .ok (i, rest) :=
  ⟨_, _, _, test_decode_enc1⟩

/-- Each of the three reasons at a boundary: RES = 1 with a legal OP, OP = 0x0, OP = 0x9; and the legal headers 0x01 and
0x08 beside them. -/
theorem witness_ReservedHeadersAreIllegal :
    (0x14#8).extractLsb' 4 4 ≠ 0b0000#4 ∧ (0x00#8).extractLsb' 0 4 = 0x0#4 ∧
    0x9 ≤ ((0x09#8).extractLsb' 0 4).toNat ∧
    (∀ hdr ∈ [0x01#8, 0x08#8], ¬(hdr.extractLsb' 4 4 ≠ 0b0000#4 ∨ hdr.extractLsb' 0 4 = 0x0#4 ∨
      0x9 ≤ (hdr.extractLsb' 0 4).toNat)) := by decide

theorem witness_OperationTableRowsHold : (⟨0x8, "DECM", 18, 6, 12⟩ : OpRow) ∈ opTable := by decide

/-- Two different line levels that agree below N. -/
theorem witness_OperandsBeyondLengthDontCare : ∃ (hdr : Byte) (d d' : OperandLines), d ≠ d' ∧
    ∀ j : Fin 18, j.val < operandLength hdr → d[j.val] = d'[j.val] :=
  ⟨0x01, linesOf [0xBE, 0xEF, 0x00], linesOf [0xBE, 0xEF, 0x01], by decide, by decide⟩

/-- An intact group and one that is not, for the two clauses of DECW, DECRDY and DECBOOL. -/
theorem witness_word_decodes : crc8 0x12 0x34 = 0x37#8 ∧ crc8 0x12 0x34 ≠ 0x38#8 := by decide +kernel

/-- DECF's four clauses. -/
theorem witness_DecfUnpacksOneChannel :
    (crc8 0x43 0xDB = 0xCB#8 ∧ crc8 0x8C 0x2D = 0xDC#8) ∧ (crc8 0x43 0xDB ≠ 0xCA#8 ∧ crc8 0x8C 0x2D = 0xDC#8) ∧
    (crc8 0x43 0xDB = 0xCB#8 ∧ crc8 0x8C 0x2D ≠ 0xF0#8) ∧ (crc8 0x43 0xDB ≠ 0xCA#8 ∧ crc8 0x8C 0x2D ≠ 0xF0#8) := by
  decide +kernel

/-- DECM's two clauses: all six groups pass, and only the last one fails. -/
theorem witness_DecmUnpacksTheMeasurement :
    (∀ k : Fin 6, (groupAt (linesOf measurementM) k).valid = true) ∧
    (groupAt (linesOf (measurementM.set 17 0x80)) 5).valid = false ∧
    (groupAt (linesOf (measurementM.set 17 0x80)) 4).valid = true := by decide +kernel

theorem witness_IllegalHeaderRaisesIllegalOp : ∃ s t : State, exec (.illegal 0x14#8) s = .next t := ⟨dirty, _, rfl⟩

theorem witness_FlagDecodesAgreeOnlyOnZeroAndOne : ∃ (g : WordGroup) (s t u : State), g.valid = true ∧
    exec (.decrdy g) s = .next t ∧ exec (.decbool g) s = .next u :=
  ⟨⟨0x00, 0x02, 0xE3⟩, dirty, _, _, by decide +kernel, rfl, rfl⟩

theorem witness_EveryStepKeepsTheInvariant : ∃ s t : State, s.Inv ∧ step s = .next t :=
  ⟨State.reset, State.reset, ⟨⟨by decide, rfl⟩, trivial⟩, rfl⟩

theorem witness_OnlyResetSetsCodeNone : ∃ s t : State, step s = .next t ∧ t.code = .none ∧ s.code ≠ .none :=
  ⟨(dirty.withRst true).withInbox [.setRst false], _, rfl, by decide, by decide⟩

/-- RST released and driven so, and RST held and driven so. -/
theorem witness_DrivingRstAtItsLevelChangesNothing :
    (∃ s : State, s.rst = false ∧ s.inbox = [.setRst s.rst]) ∧ (∃ s : State, s.rst = true ∧ s.inbox = [.setRst s.rst]) :=
  ⟨⟨dirty.withInbox [.setRst false], rfl, rfl⟩, ⟨(dirty.withRst true).withInbox [.setRst true], rfl, rfl⟩⟩

/-- A stimulus of each kind of the two clauses. -/
theorem witness_OutcomeHoldsBetweenRequests :
    (∃ (s t : State) (x : Stimulus), s.inbox = [x] ∧ step s = .next t ∧ x.mayWriteOutcome = false) ∧
    (∃ (s t : State) (d : OperandLines), s.inbox = [.drive false 0x04 d] ∧ step s = .next t ∧ s.starts false = false) :=
  ⟨⟨dirty.withInbox [.elapsed 5], dirty, .elapsed 5, rfl, rfl, rfl⟩,
    ⟨dirty.withInbox [.drive false 0x04 (linesOf [])], _, _, rfl, rfl, rfl⟩⟩

theorem witness_TheBlockNeverStops : ∃ (s : State) (x : Stimulus), s.inbox = [x] ∧ x.ofLinesOrTime = true :=
  ⟨dirty.withInbox [.setRst true], _, rfl, rfl⟩

theorem witness_SequenceShowsTheLastRequestAlone :
    ∃ (requests : List (Byte × OperandLines)) (last : Byte × OperandLines) (s : State), s.rst = false ∧
      s.reqValid = false ∧ s.inbox = (requests ++ [last]).flatMap pulse :=
  ⟨[(0x14#8, linesOf [])], (0x01#8, linesOf [0xBE, 0xEF]),
    dirty.withInbox (([(0x14#8, linesOf [])] ++ [(0x01#8, linesOf [0xBE, 0xEF])]).flatMap pulse), rfl, rfl, rfl⟩

/-- An intact group, for the flips at both ends of each byte. -/
theorem witness_SingleBitErrorsAreDetected : (WordGroup.mk 0x12 0x34 0x37).valid = true ∧
    ∀ k ∈ [(0 : Fin 24), 7, 8, 15, 16, 23], ((WordGroup.mk 0x12 0x34 0x37).flipBit k).valid = false := by decide +kernel

theorem witness_WordDecodesDetectSingleBitErrors : Instr.decw ((intactGroup 0x1234).flipBit 0) ∈
    [Instr.decw ((intactGroup 0x1234).flipBit 0), Instr.decrdy ((intactGroup 0x1234).flipBit 0),
      Instr.decbool ((intactGroup 0x1234).flipBit 0)] := by decide +kernel

theorem witness_FloatIsTheTwoWords : ∃ (c : Channel) (s t u v : State), exec (.decf c) s = .next t ∧
    exec (.decw c.high) s = .next u ∧ exec (.decw c.low) s = .next v ∧ t.code = .ok :=
  ⟨⟨⟨0x43, 0xDB, 0xCB⟩, ⟨0x8C, 0x2D, 0xDC⟩⟩, dirty, _, _, _, rfl, rfl, rfl, by decide +kernel⟩

/-- The exponent field at both ends of each of R142's ranges. -/
theorem witness_FloatReadingFollowsBinary32 :
    (floatExp 0x007FFFFF#32).toNat = 0 ∧ (floatExp 0x00800000#32).toNat = 1 ∧ (floatExp 0x7F7FFFFF#32).toNat = 254 ∧
    (floatExp 0x7F800000#32).toNat = 255 ∧ floatFrac 0x7F800000#32 = 0#23 ∧ floatFrac 0x7F800001#32 ≠ 0#23 := by decide

theorem witness_AssemblerWritesTheRequest : ∃ (i : Instr) (bytes : List Byte), legalHeader i.header = true ∧
    i.wellFormed = true ∧ bytes.length ≠ i.operands.length := ⟨.crc8 0x00 0x00, [0x00], by decide⟩

/-- A line that assembles, and headers on both sides of each end of the legal range. -/
theorem witness_LinesAssembleToOneRequest : (∃ (line : AsmLine) (bytes : List Byte), line.assemble = some bytes) ∧
    (∀ hdr ∈ [0x00#8, 0x09#8], legalHeader hdr = false) ∧ (∀ hdr ∈ [0x01#8, 0x08#8], legalHeader hdr = true) :=
  ⟨⟨.hdr 0x14, [0x14], by decide⟩, by decide, by decide⟩

theorem witness_CommandNamesReadAsTheirCommands :
    readWord "2".toList = some 2#16 ∧ readWord "0xFFFF".toList = some 0xFFFF#16 ∧ readFlag "true".toList = some true ∧
      readFlag "false".toList = some false := by decide

theorem witness_CalledCommandWritesItsFrame : ∃ (c : Command) (s : State) (rest : List Stimulus),
    s.session = .ready ∧ s.rst = false ∧ s.inbox = .call c :: rest :=
  ⟨.measure, (dirty.withSession .ready).withInbox [.call .measure], [], rfl, rfl, rfl⟩

theorem witness_WriteFailureReturnsCommunicationError :
    ∃ (c : Command) (frame : List Byte) (s : State) (rest : List Stimulus), s.session = .writing c frame ∧
      s.inbox = .written false :: rest :=
  ⟨.stop, [0x01, 0x01], (dirty.withSession (.writing .stop [0x01, 0x01])).withInbox [.written false], [], rfl, rfl⟩

theorem witness_OpenAndReadFailuresReturnTheirErrors :
    (∃ (bus : Nat) (s : State), s.session = .opening bus ∧ s.inbox = [.opened false]) ∧
    (∃ (c : Command) (s : State), s.session = .reading c ∧ s.inbox = [.readFailed]) :=
  ⟨⟨1, (dirty.withSession (.opening 1)).withInbox [.opened false], rfl, rfl⟩,
    ⟨.measure, (dirty.withSession (.reading .measure)).withInbox [.readFailed], rfl, rfl⟩⟩

/-- A host that settles on (no time has passed), and two that have gone on, with and without a response. That a positive
time is short of the delay cannot be shown of any one time, the delay having no body. -/
theorem witness_HostWaitsOutTheSettleDelay :
    (∃ (c : Command) (pieces : List Nat) (s : State), s.session = .settling c 0 ∧ s.inbox = pieces.map .elapsed ∧
      (pieces = [] ∨ pieces.sum < Config.settleDelayMs c)) ∧
    (∃ (c : Command) (pieces : List Nat) (s : State), s.session = .settling c 0 ∧ s.inbox = pieces.map .elapsed ∧
      ¬(pieces = [] ∨ pieces.sum < Config.settleDelayMs c) ∧ c.response ≠ .none) ∧
    (∃ (c : Command) (pieces : List Nat) (s : State), s.session = .settling c 0 ∧ s.inbox = pieces.map .elapsed ∧
      ¬(pieces = [] ∨ pieces.sum < Config.settleDelayMs c) ∧ c.response = .none) :=
  ⟨⟨.measure, [], dirty.withSession (.settling .measure 0), rfl, rfl, .inl rfl⟩,
    ⟨.measure, [1, Config.settleDelayMs .measure], (dirty.withSession (.settling .measure 0)).withInbox
      [.elapsed 1, .elapsed (Config.settleDelayMs .measure)], rfl, rfl, by simp, by decide⟩,
    ⟨.softReset, [Config.settleDelayMs .softReset], (dirty.withSession (.settling .softReset 0)).withInbox
      [.elapsed (Config.settleDelayMs .softReset)], rfl, rfl, by simp, rfl⟩⟩

theorem witness_UnansweredReadBlocksTheCall : ∃ (c : Command) (s t : State), s.session = .reading c ∧
    (∀ x ∈ s.inbox, x.answersRead = false) ∧ runSteps 1 s = .next t :=
  ⟨.measure, (dirty.withSession (.reading .measure)).withInbox [.elapsed 1000], _, rfl, by decide, rfl⟩

theorem witness_CommandReturnsItsResult :
    (∃ (c : Command) (ms : Nat) (s : State), s.session = .ready ∧ s.rst = false ∧ Config.settleDelayMs c ≤ ms ∧
      c.response = .none ∧ s.inbox = [.call c, .written true, .elapsed ms]) ∧
    (∃ (c : Command) (ms : Nat) (bytes : OperandLines) (s : State), s.session = .ready ∧ s.rst = false ∧
      Config.settleDelayMs c ≤ ms ∧ c.response ≠ .none ∧
      s.inbox = [.call c, .written true, .elapsed ms, .readDone bytes]) :=
  ⟨⟨.stop, _, (dirty.withSession .ready).withInbox [.call .stop, .written true, .elapsed (Config.settleDelayMs .stop)],
      rfl, rfl, Nat.le_refl _, rfl, rfl⟩,
    ⟨.measure, _, linesOf measurementM, (dirty.withSession .ready).withInbox
      [.call .measure, .written true, .elapsed (Config.settleDelayMs .measure), .readDone (linesOf measurementM)],
      rfl, rfl, Nat.le_refl _, by decide, rfl⟩⟩

/-- Each of the caller's operations in each of the host's four waiting phases. -/
theorem witness_SecondCallBeforeReturnIsRefused :
    ∀ x ∈ [Stimulus.call .stop, .openBus 1, .dropHandle],
    ∀ p ∈ [Session.opening 1, .writing .measure [0x03, 0x00], .settling .measure 0, .reading .measure],
      ∃ s : State, s.inbox = [x] ∧ s.session = p := fun x _ p _ => ⟨(dirty.withSession p).withInbox [x], rfl, rfl⟩

theorem witness_SessionOpensAndCloses :
    (∃ (bus : Nat) (s : State), s.session = .closed ∧ s.inbox = [.openBus bus]) ∧
    (∃ (bus : Nat) (s : State), s.session = .opening bus ∧ s.inbox = [.opened true]) ∧
    (∃ s : State, s.session = .ready ∧ s.inbox = [.dropHandle]) :=
  ⟨⟨1, dirty.withInbox [.openBus 1], rfl, rfl⟩,
    ⟨1, (dirty.withSession (.opening 1)).withInbox [.opened true], rfl, rfl⟩,
    ⟨(dirty.withSession .ready).withInbox [.dropHandle], rfl, rfl⟩⟩

theorem witness_HostOperationsNeedTheirSession :
    (∃ s : State, s.session = .closed ∧ s.inbox = [.call .measure]) ∧
    (∃ s : State, s.session = .closed ∧ s.inbox = [.dropHandle]) ∧
    (∃ (bus : Nat) (s : State), s.session = .ready ∧ s.inbox = [.openBus bus]) :=
  ⟨⟨dirty.withInbox [.call .measure], rfl, rfl⟩, ⟨dirty.withInbox [.dropHandle], rfl, rfl⟩,
    ⟨1, (dirty.withSession .ready).withInbox [.openBus 1], rfl, rfl⟩⟩

end Sys2Proof.Tests
end

section
/-! PROOFS. The scope statement (spec/00_scope.md): the block never acts by itself. -/

namespace Sys2Proof.Proofs.Scope

open Sys2Proof.Machine

/-- Settles O7: the step takes the oldest stimulus, and on an empty inbox there is none to react to (`step_nil`). -/
theorem nothingHappensByItself : Obligations.NothingHappensByItself :=
  fun s hinbox => step_nil s hinbox

end Sys2Proof.Proofs.Scope
end

section
/-! PROOFS. What one request leaves in STATUS and OUT (spec/10_state.md R20, R27 to R31): the three outcomes of exec, the
fields each shows, and that each is legal. -/

namespace Sys2Proof

open Sys2Proof.Machine

/-! ### A request and its row of R62 -/

/-- A legal request's row of R62 counts the groups it checks and the bytes of its result. -/
theorem Instr.opRow_header (i : Instr) (legal : ∀ hdr, i ≠ .illegal hdr) :
    ∃ row, opRow (hdrOp i.header) = some row ∧ row.g = i.groups.length ∧ row.outLen = i.result.length := by
  cases i with
  | crc8 | enc0 | enc1 | decw | decrdy | decbool | decf | decm => exact ⟨_, rfl, rfl, rfl⟩
  | illegal hdr => exact absurd rfl (legal hdr)

/-- A result fits in OUT (R27). -/
theorem Instr.result_length_le (i : Instr) : i.result.length ≤ 12 := by
  cases i <;> simp [Instr.result, frameF0, frameF1, Channel.dataBytes]

/-- Every result length of R62 is one of those R31 lists. -/
theorem opRow_outLen_mem {op : BitVec 4} {row : OpRow} (h : opRow op = some row) :
    row.outLen ∈ [0, 1, 2, 4, 5, 12] := by
  have table : ∀ r ∈ opTable, r.outLen ∈ [0, 1, 2, 4, 5, 12] := by decide
  exact table row (List.mem_of_find?_eq_some h)

/-- The decoder keeps the header (R64). -/
theorem decodeRequest_header (hdr : Byte) (d : OperandLines) : (decodeRequest hdr d).header = hdr := by
  cases legal : legalHeader hdr with
  | false => rw [decodeRequest_illegal hdr d legal]; rfl
  | true => rcases legalHeader_cases hdr legal with rfl | rfl | rfl | rfl | rfl | rfl | rfl | rfl <;> rfl

/-- The result length of a decoded request, by its header (R31). -/
theorem decodeRequest_result_length (hdr : Byte) (d : OperandLines) :
    (decodeRequest hdr d).result.length = [0, 1, 2, 5, 2, 1, 1, 4, 12].getD hdr.toNat 0 := by
  have reserved : ∀ hdr : Byte, legalHeader hdr = false → [0, 1, 2, 5, 2, 1, 1, 4, 12].getD hdr.toNat 0 = 0 := by
    decide
  cases legal : legalHeader hdr with
  | false => rw [decodeRequest_illegal hdr d legal, reserved hdr legal]; rfl
  | true => rcases legalHeader_cases hdr legal with rfl | rfl | rfl | rfl | rfl | rfl | rfl | rfl <;> rfl

/-- The request that encodes a command has the command's frame as its result (R160). -/
theorem Command.request_result (c : Command) : c.request.result = c.frame := by
  unfold Command.request Command.frame
  cases c.argument <;> rfl

/-- The request that encodes a command is ENC0 or ENC1, which checks no group (R160). -/
theorem Command.request_encodes (c : Command) :
    c.request.groups = [] ∧ c.request.wellFormed = true ∧ ∀ hdr, c.request ≠ .illegal hdr := by
  unfold Command.request
  cases c.argument <;> exact ⟨rfl, rfl, nofun⟩

end Sys2Proof

namespace Sys2Proof.Machine

/-! ### FAILMASK (R29) -/

theorem failMaskOf_nil : failMaskOf [] = 0#6 := by decide

/-- The bits at and above the group count are 0 (R29). -/
theorem failMaskOf_toNat_lt (gs : List WordGroup) : (failMaskOf gs).toNat < 2 ^ gs.length := by
  refine Nat.lt_pow_two_of_testBit _ fun k hk => ?_
  rw [BitVec.testBit_toNat]
  by_cases h : k < 6
  · rw [failMaskOf_getLsbD gs k h]
    simp [failBit, List.getElem?_eq_none hk]
  · exact BitVec.getLsbD_of_ge _ _ (by omega)

/-! ### The three outcomes of exec (R200) -/

/-- What exec can do: complete with the result bytes, raise ChecksumError with the mask of the groups, or, for an illegal
request alone, raise IllegalOp. -/
theorem exec_cases (i : Instr) (s : State) :
    ((∀ hdr, i ≠ .illegal hdr) ∧ failMaskOf i.groups = 0#6 ∧
      exec i s = .next (s.complete (hdrOp i.header) i.result)) ∨
    ((∀ hdr, i ≠ .illegal hdr) ∧ failMaskOf i.groups ≠ 0#6 ∧
      exec i s = .next (s.raiseChecksumError (hdrOp i.header) (failMaskOf i.groups))) ∨
    ∃ hdr, i = .illegal hdr ∧ exec i s = .next (s.raiseIllegalOp hdr) := by
  by_cases legal : ∀ hdr, i ≠ .illegal hdr
  · have run := exec_legal i s legal
    rcases s.finishDecode_cases (hdrOp i.header) i.groups i.result with ⟨pass, fin⟩ | ⟨fail, fin⟩
    · exact .inl ⟨legal, pass, by rw [run, fin]⟩
    · exact .inr (.inl ⟨legal, fail, by rw [run, fin]⟩)
  · simp only [not_forall, not_not] at legal
    obtain ⟨hdr, rfl⟩ := legal
    exact .inr (.inr ⟨hdr, rfl, rfl⟩)

variable {i : Instr} {s t : State}

/-- A request changes STATUS and OUT alone (R20). -/
theorem exec_sameElsewhere (h : exec i s = .next t) : s.SameElsewhere t := by
  obtain ⟨status, out, run⟩ := exec_report i
  obtain rfl := Host.Outcome.next.inj ((run s).symm.trans h)
  exact s.sameElsewhere_report status out

/-- STATUS.OP is HDR[3:0] whatever the outcome (R30). -/
theorem exec_op (h : exec i s = .next t) : t.op = hdrOp i.header := by
  rcases exec_cases i s with ⟨-, -, run⟩ | ⟨-, -, run⟩ | ⟨hdr, rfl, run⟩ <;>
    obtain rfl := Host.Outcome.next.inj (run.symm.trans h)
  · simp
  · simp
  · simp [Instr.header]

/-- STATUS.FAILMASK is the mask of the request's groups whatever the outcome (R29). -/
theorem exec_failMask (h : exec i s = .next t) : t.failMask = failMaskOf i.groups := by
  rcases exec_cases i s with ⟨-, pass, run⟩ | ⟨-, -, run⟩ | ⟨hdr, rfl, run⟩ <;>
    obtain rfl := Host.Outcome.next.inj (run.symm.trans h)
  · simp [pass]
  · simp
  · simp [Instr.groups, failMaskOf_nil]

/-- After OK, STATUS.OUTLEN is the number of result bytes (R31). -/
theorem exec_outLen_of_ok (h : exec i s = .next t) (ok : t.code = .ok) : t.outLen = i.result.length := by
  rcases exec_cases i s with ⟨-, -, run⟩ | ⟨-, -, run⟩ | ⟨hdr, rfl, run⟩ <;>
    obtain rfl := Host.Outcome.next.inj (run.symm.trans h)
  · exact s.complete_outLen _ _ i.result_length_le
  · simp at ok
  · simp at ok

/-! ### Legal outcomes (R27 to R31) -/

theorem State.complete_outcomeLegal (s : State) {op : BitVec 4} {result : List Byte} {row : OpRow}
    (hrow : opRow op = some row) (hlen : row.outLen = result.length) (hle : result.length ≤ 12) :
    (s.complete op result).OutcomeLegal := by
  have outLen := s.complete_outLen op result hle
  refine ⟨fun j hj => outOf_zero_fill result j.val j.isLt (outLen ▸ hj), ?_⟩
  simp [hrow, outLen, hlen]

theorem State.raiseChecksumError_outcomeLegal (s : State) {op : BitVec 4} {mask : BitVec 6} {row : OpRow}
    (hrow : opRow op = some row) (hmask : mask ≠ 0#6) (hlt : mask.toNat < 2 ^ row.g) :
    (s.raiseChecksumError op mask).OutcomeLegal := by
  refine ⟨fun j _ => outOf_zero_fill [] j.val j.isLt (Nat.zero_le _), ?_⟩
  simpa [hrow] using ⟨hmask, hlt⟩

theorem State.raiseIllegalOp_outcomeLegal (s : State) (hdr : Byte) : (s.raiseIllegalOp hdr).OutcomeLegal := by
  refine ⟨fun j _ => outOf_zero_fill [] j.val j.isLt (Nat.zero_le _), ?_⟩
  simp

theorem State.clear_outcomeLegal (s : State) : s.clear.OutcomeLegal :=
  ⟨fun j _ => outOf_zero_fill [] j.val j.isLt (Nat.zero_le _), rfl⟩

/-- Every request leaves a legal outcome, from every state. -/
theorem exec_outcomeLegal (h : exec i s = .next t) : t.OutcomeLegal := by
  rcases exec_cases i s with ⟨legal, -, run⟩ | ⟨legal, fail, run⟩ | ⟨hdr, -, run⟩ <;>
    obtain rfl := Host.Outcome.next.inj (run.symm.trans h)
  · obtain ⟨row, hrow, -, hlen⟩ := i.opRow_header legal
    exact s.complete_outcomeLegal hrow hlen i.result_length_le
  · obtain ⟨row, hrow, hg, -⟩ := i.opRow_header legal
    exact s.raiseChecksumError_outcomeLegal hrow fail (hg ▸ failMaskOf_toNat_lt i.groups)
  · exact s.raiseIllegalOp_outcomeLegal hdr

/-- Whether an outcome is legal is a matter of STATUS and OUT alone. -/
theorem State.OutcomeLegal.of_observe_eq (legal : s.OutcomeLegal) (h : t.observe = s.observe) : t.OutcomeLegal := by
  obtain ⟨hstatus, hout⟩ := Prod.mk.inj h
  simpa only [State.OutcomeLegal, State.outLen, State.code, State.failMask, State.op, hstatus, hout] using legal

/-- OUTLEN is 0 after an error and after reset (R31). -/
theorem State.OutcomeLegal.outLen_eq_zero (legal : s.OutcomeLegal) (h : s.code ≠ .ok) : s.outLen = 0 := by
  obtain ⟨-, fields⟩ := legal
  cases hcode : s.code <;> rw [hcode] at fields
  case none =>
    rw [State.outLen, fields]
    rfl
  case ok => exact absurd hcode h
  case checksumError =>
    obtain ⟨outLen, -⟩ := fields
    exact outLen
  case illegalOp =>
    obtain ⟨outLen, -⟩ := fields
    exact outLen

/-- Only 0, 1, 2, 4, 5 and 12 occur as OUTLEN (R31). -/
theorem State.OutcomeLegal.outLen_mem (legal : s.OutcomeLegal) : s.outLen ∈ [0, 1, 2, 4, 5, 12] := by
  by_cases ok : s.code = .ok
  · obtain ⟨-, fields⟩ := legal
    rw [ok] at fields
    obtain ⟨-, row, hrow, hlen⟩ := fields
    exact hlen ▸ opRow_outLen_mem hrow
  · simp [legal.outLen_eq_zero ok]

/-! ### The result bytes (R31) -/

/-- After OK the first OUTLEN bytes of OUT are the result. -/
theorem State.complete_resultBytes (s : State) (op : BitVec 4) (result : List Byte) (h : result.length ≤ 12) :
    (s.complete op result).resultBytes = result := by
  rw [State.resultBytes, s.complete_outLen op result h, State.complete_out]
  refine List.ext_getElem (by simpa using h) fun j _ hj => ?_
  simp [hj]

/-- The encode of a command leaves the command's frame as the result bytes (R66, R160). -/
theorem exec_request_resultBytes (c : Command) (h : exec c.request s = .next t) : t.resultBytes = c.frame := by
  obtain ⟨nogroups, -, legal⟩ := c.request_encodes
  rcases exec_cases c.request s with ⟨-, -, run⟩ | ⟨-, fail, -⟩ | ⟨hdr, ill, -⟩
  · obtain rfl := Host.Outcome.next.inj (run.symm.trans h)
    rw [s.complete_resultBytes _ _ c.request.result_length_le, c.request_result]
  · exact absurd (nogroups ▸ failMaskOf_nil) fail
  · exact absurd ill (legal hdr)

end Sys2Proof.Machine
end

section
/-! PROOFS. What one stimulus can do to the machine (spec/60_exceptions.md R206 to R208, spec/70_reset_and_hazards.md R230,
R233, R235): each operation of the host inverted once, the whole next state and the phase it needs. -/

namespace Sys2Proof.Machine

/-! ### What the block shows, after an update that is not the block's (R36) -/

@[simp] theorem State.withLines_observe (s : State) (valid : Bool) (hdr : Byte) (d : OperandLines) :
    (s.withLines valid hdr d).observe = s.observe := rfl
@[simp] theorem State.withRst_observe (s : State) (level : Bool) : (s.withRst level).observe = s.observe := rfl
@[simp] theorem State.withSession_observe (s : State) (p : Session) : (s.withSession p).observe = s.observe := rfl
@[simp] theorem State.withReturned_observe (s : State) (r : Option HostResult) :
    (s.withReturned r).observe = s.observe := rfl
@[simp] theorem State.returning_observe (s : State) (r : HostResult) : (s.returning r).observe = s.observe := rfl
@[simp] theorem State.withInbox_observe (s : State) (inbox : List Stimulus) :
    (s.withInbox inbox).observe = s.observe := rfl
@[simp] theorem State.report_observe (s : State) (status : BitVec 16) (out : OutBytes) :
    (s.report status out).observe = (status, out) := rfl

/-! ### The host's operations, inverted -/

variable {s t : State}

theorem openSession_next {bus : Nat} (h : openSession bus s = .next t) :
    s.session = .closed ∧ t = (s.withSession (.opening bus)).withReturned none := by
  unfold openSession at h
  split at h
  · next closed => exact ⟨closed, (Host.Outcome.next.inj h).symm⟩
  all_goals cases h

theorem openAnswer_next {ok : Bool} (h : openAnswer ok s = .next t) :
    (∃ bus, s.session = .opening bus) ∧
    ((ok = true ∧ t = s.returning .handle) ∨
      (ok = false ∧ t = (s.withSession .closed).withReturned (some (.error .ioError)))) := by
  unfold openAnswer at h
  split at h
  · next bus opening =>
    refine ⟨⟨bus, opening⟩, ?_⟩
    cases ok with
    | true => exact .inl ⟨rfl, (Host.Outcome.next.inj h).symm⟩
    | false => exact .inr ⟨rfl, (Host.Outcome.next.inj h).symm⟩
  all_goals cases h

theorem dropSession_next (h : dropSession s = .next t) : s.session = .ready ∧ t = s.withSession .closed := by
  unfold dropSession at h
  split at h
  · next ready => exact ⟨ready, (Host.Outcome.next.inj h).symm⟩
  all_goals cases h

/-- A called command encodes its frame and goes on to write the result bytes. -/
theorem callCommand_next {c : Command} (h : callCommand c s = .next t) :
    s.session = .ready ∧ s.rst = false ∧ ∃ u,
      exec c.request (s.withLines true c.request.header (linesOf c.request.operands)) = .next u ∧
      t = ((u.withLines false c.request.header (linesOf c.request.operands)).withSession
        (.writing c u.resultBytes)).withReturned none := by
  obtain ⟨-, wf, -⟩ := c.request_encodes
  unfold callCommand at h
  split at h
  · next ready =>
    rcases issue_cases c.request.header (linesOf c.request.operands) s _ with ⟨-, e⟩ | ⟨rst, u, run, e⟩
    · cases e.symm.trans h
    · rw [decodeRequest_linesOf c.request wf] at run
      exact ⟨ready, rst, u, run, (Host.Outcome.next.inj (e.symm.trans h)).symm⟩
  all_goals cases h

theorem writeAnswer_next {ok : Bool} (h : writeAnswer ok s = .next t) :
    ∃ c frame, s.session = .writing c frame ∧
      ((ok = true ∧ t = s.withSession (.settling c 0)) ∨
        (ok = false ∧ t = s.returning (.error .communicationError))) := by
  unfold writeAnswer at h
  split at h
  · next c frame writing =>
    refine ⟨c, frame, writing, ?_⟩
    cases ok with
    | true => exact .inl ⟨rfl, (Host.Outcome.next.inj h).symm⟩
    | false => exact .inr ⟨rfl, (Host.Outcome.next.inj h).symm⟩
  all_goals cases h

/-- Time leaves every phase alone but settling, which goes on once the settle delay has passed (R235). -/
theorem passTime_next {ms : Nat} (h : passTime ms s = .next t) :
    ((∀ c waitedMs, s.session ≠ .settling c waitedMs) ∧ t = s) ∨
    ∃ c waitedMs, s.session = .settling c waitedMs ∧
      ((waitedMs + ms < Config.settleDelayMs c ∧ t = s.withSession (.settling c (waitedMs + ms))) ∨
        (Config.settleDelayMs c ≤ waitedMs + ms ∧ c.response.length = 0 ∧ t = s.returning .unit) ∨
        (Config.settleDelayMs c ≤ waitedMs + ms ∧ 0 < c.response.length ∧ t = s.withSession (.reading c))) := by
  unfold passTime at h
  split at h
  · next c waitedMs settling =>
    refine .inr ⟨c, waitedMs, settling, ?_⟩
    split at h
    · next early => exact .inl ⟨early, (Host.Outcome.next.inj h).symm⟩
    · next late =>
      split at h
      · next unit => exact .inr (.inl ⟨not_lt.mp late, unit, (Host.Outcome.next.inj h).symm⟩)
      · next reads =>
        exact .inr (.inr ⟨not_lt.mp late, Nat.pos_of_ne_zero reads, (Host.Outcome.next.inj h).symm⟩)
  all_goals
    next phase => exact .inl ⟨by simp [phase], (Host.Outcome.next.inj h).symm⟩

/-- A read that returned bytes is decoded, and the host returns the result view or ChecksumError (R206, R208). -/
theorem readAnswer_next {bytes : OperandLines} (h : readAnswer bytes s = .next t) :
    s.rst = false ∧ ∃ c hdr u, s.session = .reading c ∧ c.response.header = some hdr ∧
      exec (decodeRequest hdr bytes) (s.withLines true hdr bytes) = .next u ∧
      t = (u.withLines false hdr bytes).returning
        (if u.code = .checksumError then .error .checksumError
          else c.response.view (u.withLines false hdr bytes)) := by
  unfold readAnswer at h
  split at h
  · next c reading =>
    split at h
    · next hdr decodes =>
      rcases issue_cases hdr bytes s _ with ⟨-, e⟩ | ⟨rst, u, run, e⟩
      · cases e.symm.trans h
      · exact ⟨rst, c, hdr, u, reading, decodes, run, (Host.Outcome.next.inj (e.symm.trans h)).symm⟩
    · cases h
  all_goals cases h

theorem readFailure_next (h : readFailure s = .next t) :
    (∃ c, s.session = .reading c) ∧ t = s.returning (.error .communicationError) := by
  unfold readFailure at h
  split at h
  · next c reading => exact ⟨⟨c, reading⟩, (Host.Outcome.next.inj h).symm⟩
  all_goals cases h

/-! ### What a stimulus does to STATUS and OUT (R22) -/

theorem driveLines_next {valid : Bool} {hdr : Byte} {d : OperandLines} (h : driveLines valid hdr d s = .next t) :
    (s.starts valid = true ∧ exec (decodeRequest hdr d) (s.withLines valid hdr d) = .next t) ∨
    (s.starts valid = false ∧ t = s.withLines valid hdr d) := by
  rcases driveLines_cases valid hdr d s with ⟨starts, e⟩ | ⟨idle, e⟩
  · exact .inl ⟨starts, e.symm.trans h⟩
  · exact .inr ⟨idle, (Host.Outcome.next.inj (e.symm.trans h)).symm⟩

theorem driveRst_next {level : Bool} (h : driveRst level s = .next t) :
    (level = s.rst ∧ t = s) ∨ (level ≠ s.rst ∧ t = s.clear.withRst level) ∨
    (level = true ∧ s.rst = false ∧ t = s.withRst level) := by
  rcases driveRst_cases level s with ⟨same, e⟩ | ⟨edge, e⟩ | ⟨high, low, e⟩ <;>
    have ht := (Host.Outcome.next.inj (e.symm.trans h)).symm
  · exact .inl ⟨same, ht⟩
  · exact .inr (.inl ⟨edge, ht⟩)
  · exact .inr (.inr ⟨high, low, ht⟩)

/-- Only a drive of the lines, a drive of RST, a call and a read's bytes can write STATUS and OUT (R22, R48). -/
theorem react_observe_of_not_mayWriteOutcome {x : Stimulus} (quiet : x.mayWriteOutcome = false)
    (h : react x s = .next t) : t.observe = s.observe := by
  cases x with
  | drive | setRst | call | readDone => cases quiet
  | openBus bus =>
    obtain ⟨-, rfl⟩ := openSession_next h
    simp
  | opened ok =>
    obtain ⟨-, ⟨-, rfl⟩ | ⟨-, rfl⟩⟩ := openAnswer_next h <;> simp
  | dropHandle =>
    obtain ⟨-, rfl⟩ := dropSession_next h
    simp
  | written ok =>
    obtain ⟨c, frame, -, ⟨-, rfl⟩ | ⟨-, rfl⟩⟩ := writeAnswer_next h <;> simp
  | elapsed ms =>
    rcases passTime_next h with ⟨-, rfl⟩ | ⟨c, waitedMs, -, ⟨-, rfl⟩ | ⟨-, -, rfl⟩ | ⟨-, -, rfl⟩⟩ <;> simp
  | readFailed =>
    obtain ⟨-, rfl⟩ := readFailure_next h
    simp

/-- Every stimulus keeps the outcome legal: what it leaves in STATUS and OUT is the old outcome, the reset values or a
request's own outcome. -/
theorem react_keeps_outcomeLegal {x : Stimulus} (legal : s.OutcomeLegal) (h : react x s = .next t) :
    t.OutcomeLegal := by
  cases quiet : x.mayWriteOutcome with
  | false => exact legal.of_observe_eq (react_observe_of_not_mayWriteOutcome quiet h)
  | true =>
    cases x with
    | drive valid hdr d =>
      rcases driveLines_next h with ⟨-, run⟩ | ⟨-, rfl⟩
      · exact exec_outcomeLegal run
      · exact legal.of_observe_eq rfl
    | setRst level =>
      rcases driveRst_next h with ⟨-, rfl⟩ | ⟨-, rfl⟩ | ⟨-, -, rfl⟩
      · exact legal
      · exact s.clear_outcomeLegal.of_observe_eq rfl
      · exact legal.of_observe_eq rfl
    | call c =>
      obtain ⟨-, -, u, run, rfl⟩ := callCommand_next h
      exact (exec_outcomeLegal run).of_observe_eq rfl
    | readDone bytes =>
      obtain ⟨-, c, hdr, u, -, -, run, rfl⟩ := readAnswer_next h
      exact (exec_outcomeLegal run).of_observe_eq rfl
    | openBus | opened | dropHandle | written | elapsed | readFailed => cases quiet

/-! ### What a stimulus does to the host's phase (R208) -/

/-- Whether a phase is legal is a matter of the session alone. -/
theorem State.SessionLegal.of_session_eq (legal : s.SessionLegal) (h : t.session = s.session) : t.SessionLegal := by
  simpa only [State.SessionLegal, h] using legal

/-- The block's lines and RST leave the host where it is (R21, R231). -/
theorem driveLines_session {valid : Bool} {hdr : Byte} {d : OperandLines} (h : driveLines valid hdr d s = .next t) :
    t.session = s.session := by
  rcases driveLines_next h with ⟨-, run⟩ | ⟨-, rfl⟩
  · obtain ⟨-, -, -, -, session, -, -⟩ := exec_sameElsewhere run
    exact session
  · rfl

theorem driveRst_session {level : Bool} (h : driveRst level s = .next t) : t.session = s.session := by
  rcases driveRst_next h with ⟨-, rfl⟩ | ⟨-, rfl⟩ | ⟨-, -, rfl⟩ <;> rfl

/-- Every stimulus keeps the host's phase legal. The two phases with a constraint are entered in one way each: `writing` by
a call, with the frame that the encode left in OUT, and `reading` by the passing of time, for a command that has a
response. -/
theorem react_keeps_sessionLegal {x : Stimulus} (legal : s.SessionLegal) (h : react x s = .next t) :
    t.SessionLegal := by
  cases x with
  | drive valid hdr d => exact legal.of_session_eq (driveLines_session h)
  | setRst level => exact legal.of_session_eq (driveRst_session h)
  | openBus bus =>
    obtain ⟨-, rfl⟩ := openSession_next h
    exact trivial
  | opened ok =>
    obtain ⟨-, ⟨-, rfl⟩ | ⟨-, rfl⟩⟩ := openAnswer_next h <;> exact trivial
  | dropHandle =>
    obtain ⟨-, rfl⟩ := dropSession_next h
    exact trivial
  | call c =>
    obtain ⟨-, -, u, run, rfl⟩ := callCommand_next h
    exact exec_request_resultBytes c run
  | written ok =>
    obtain ⟨c, frame, -, ⟨-, rfl⟩ | ⟨-, rfl⟩⟩ := writeAnswer_next h <;> exact trivial
  | elapsed ms =>
    rcases passTime_next h with ⟨-, rfl⟩ | ⟨c, waitedMs, -, ⟨-, rfl⟩ | ⟨-, -, rfl⟩ | ⟨-, reads, rfl⟩⟩
    · exact legal
    · exact trivial
    · exact trivial
    · exact reads
  | readDone bytes =>
    obtain ⟨-, c, hdr, u, -, -, run, rfl⟩ := readAnswer_next h
    exact trivial
  | readFailed =>
    obtain ⟨-, rfl⟩ := readFailure_next h
    exact trivial

end Sys2Proof.Machine
end

section
/-! PROOFS. A sequence of requests, one strobe pulse after another (spec/10_state.md R36, spec/20_memory.md R50). -/

namespace Sys2Proof.Machine

/-- A pulse takes two steps: the strobe's rise performs the request, and its fall changes the lines' levels alone. -/
theorem runSteps_pulse (request : Byte × OperandLines) {status : BitVec 16} {out : OutBytes}
    (run : ∀ u, exec (decodeRequest request.1 request.2) u = .next (u.report status out))
    (n : Nat) (s : State) (rest : List Stimulus) (rst : s.rst = false) (low : s.reqValid = false)
    (inbox : s.inbox = pulse request ++ rest) :
    runSteps (n + 2) s =
      runSteps n (((s.withInbox rest).withLines false request.1 request.2).report status out) := by
  have rise : step s = .next (((s.withInbox (.drive false request.1 request.2 :: rest)).withLines true request.1
      request.2).report status out) := by
    rw [step_cons s _ _ inbox]
    simp [react, driveLines, runRequest, State.starts, rst, low, run]
  rw [runSteps_succ_next _ _ _ rise]
  refine runSteps_succ_next _ _ _ ?_
  rw [step_cons _ _ rest rfl]
  rfl

/-- A sequence of pulses runs to its end and leaves the outcome of its last request; the host is untouched. -/
theorem runSteps_pulses (last : Byte × OperandLines) {status : BitVec 16} {out : OutBytes}
    (run : ∀ u, exec (decodeRequest last.1 last.2) u = .next (u.report status out))
    (requests : List (Byte × OperandLines)) (s : State) (rst : s.rst = false) (low : s.reqValid = false)
    (inbox : s.inbox = (requests ++ [last]).flatMap pulse) :
    ∃ t, runSteps (2 * (requests.length + 1)) s = .next t ∧ t.observe = (status, out) ∧
      t.session = s.session ∧ t.returned = s.returned ∧ t.inbox = [] := by
  induction requests generalizing s with
  | nil => exact ⟨_, runSteps_pulse last run 0 s [] rst low inbox, rfl, rfl, rfl, rfl⟩
  | cons first others ih =>
    obtain ⟨firstStatus, firstOut, runFirst⟩ := exec_report (decodeRequest first.1 first.2)
    have pulsed := runSteps_pulse first runFirst (2 * (others.length + 1)) s _ rst low inbox
    obtain ⟨t, runs, shown⟩ := ih (((s.withInbox ((others ++ [last]).flatMap pulse)).withLines false first.1
      first.2).report firstStatus firstOut) rst rfl rfl
    exact ⟨t, pulsed.trans runs, shown⟩

end Sys2Proof.Machine
end

section
/-! PROOFS. The statements on the registers STATUS and OUT (spec/10_state.md). -/

namespace Sys2Proof.Proofs.Registers

open Sys2Proof.Machine

/-- Settles O31: a step is the reaction to one stimulus, and every stimulus keeps the outcome and the host's phase legal. -/
theorem everyStepKeepsTheInvariant : Obligations.EveryStepKeepsTheInvariant := by
  rintro s t ⟨outcome, session⟩ h
  cases inbox : s.inbox with
  | nil =>
    obtain rfl := Host.Outcome.next.inj ((step_nil s inbox).symm.trans h)
    exact ⟨outcome, session⟩
  | cons x rest =>
    rw [step_cons s x rest inbox] at h
    exact ⟨react_keeps_outcomeLegal (s := s.withInbox rest) (outcome.of_observe_eq rfl) h,
      react_keeps_sessionLegal (s := s.withInbox rest) (session.of_session_eq rfl) h⟩

/-- Settles O26: a request's report of STATUS and OUT is the same from every state (`exec_report`). -/
theorem resultDependsOnlyOnTheRequest : Obligations.ResultDependsOnlyOnTheRequest := by
  intro i s s'
  obtain ⟨status, out, run⟩ := exec_report i
  exact ⟨_, _, run s, run s', rfl, s.sameElsewhere_report status out, s'.sameElsewhere_report status out⟩

/-- Settles O28: FAILMASK is the mask of the request's groups, and its bit k is that of the group on the lines at place k. -/
theorem failMaskRecordsEveryFailingGroup : Obligations.FailMaskRecordsEveryFailingGroup := by
  intro hdr d s
  obtain ⟨status, out, run⟩ := exec_report (decodeRequest hdr d)
  refine ⟨_, run s, fun k => ?_⟩
  rw [exec_failMask (run s), failMaskOf_getLsbD _ k.val k.isLt, failBit, decodeRequest_groups]
  by_cases checked : k.val < groupCount hdr
  · simp [checked, groupAt, WordGroup.valid, beq_eq_decide]
  · simp [checked]

/-- Settles O29: every outcome records the low four bits of the request's header, which the decoder keeps. -/
theorem statusOpRecordsTheHeader : Obligations.StatusOpRecordsTheHeader := by
  intro hdr d s
  obtain ⟨status, out, run⟩ := exec_report (decodeRequest hdr d)
  refine ⟨_, run s, ?_⟩
  rw [exec_op (run s), decodeRequest_header, hdrOp]

/-- Settles O30: OUTLEN after OK is the length of the result, and the rest holds of every legal outcome. -/
theorem outLenAndZeroFill : Obligations.OutLenAndZeroFill := by
  refine ⟨rfl, fun hdr d s => ?_⟩
  obtain ⟨status, out, run⟩ := exec_report (decodeRequest hdr d)
  have legal := exec_outcomeLegal (run s)
  have ⟨zeroFill, _⟩ := legal
  refine ⟨_, run s, fun ok => ?_, legal.outLen_eq_zero, legal.outLen_mem, zeroFill⟩
  rw [exec_outLen_of_ok (run s) ok, decodeRequest_result_length]

/-- Settles O34: no stimulus but a drive, RST, a call or a read's bytes writes STATUS and OUT, and a drive writes them only
where it starts a step. -/
theorem outcomeHoldsBetweenRequests : Obligations.OutcomeHoldsBetweenRequests := by
  intro s t x rest inbox h
  rw [step_cons s x rest inbox] at h
  refine ⟨fun quiet => react_observe_of_not_mayWriteOutcome (s := s.withInbox rest) quiet h, ?_⟩
  rintro valid hdr d rfl idle
  rcases driveLines_next h with ⟨starts, -⟩ | ⟨-, rfl⟩
  · exact absurd (starts.symm.trans idle) (by decide)
  · rfl

/-- Settles O36, by induction on the requests before the last (`runSteps_pulses`): the last request's report is the same from
the state they leave as from reset. -/
theorem sequenceShowsTheLastRequestAlone : Obligations.SequenceShowsTheLastRequestAlone := by
  intro requests last s rst low inbox
  obtain ⟨status, out, run⟩ := exec_report (decodeRequest last.1 last.2)
  obtain ⟨t, runs, shown, host⟩ := runSteps_pulses last run requests s rst low inbox
  exact ⟨t, _, runs, run State.reset, shown, host⟩

/-- Settles O1: the fields of the reset STATUS word, and the twelve bytes of OUT, by evaluation. -/
theorem resetClearsStatusAndOut : Obligations.ResetClearsStatusAndOut :=
  ⟨rfl, by decide, by decide, by decide, by decide, by decide⟩

/-- Settles O32: reset shows the cleared registers, which are legal, and has no open session. -/
theorem invariantHoldsAtReset : Obligations.InvariantHoldsAtReset :=
  ⟨State.reset.clear_outcomeLegal.of_observe_eq (by decide), trivial⟩

end Sys2Proof.Proofs.Registers
end

section
/-! PROOFS. Words and floats in memory order (spec/20_memory.md): how OUT reads after OK, and the float of a channel as the
words of its groups. -/

namespace Sys2Proof

/-- The float bits of a channel are the words of its two groups, the first in the high half (R44). -/
theorem Channel.floatBits_eq_words (c : Channel) : c.floatBits = c.high.word ++ c.low.word :=
  BitVec.append_assoc (x₁ := c.high.hi ++ c.high.lo) (x₂ := c.low.hi) (x₃ := c.low.lo)

end Sys2Proof

namespace Sys2Proof.Machine

variable {i : Instr} {s t : State}

/-- A legal request ends OK exactly where every group it checks is intact (R200, R202). -/
theorem exec_code_eq_ok_iff (h : exec i s = .next t) (legal : ∀ hdr, i ≠ .illegal hdr) :
    t.code = .ok ↔ ∀ g ∈ i.groups, g.valid = true := by
  have bound : i.groups.length ≤ 6 := by cases i <;> simp [Instr.groups, Channel.groups]
  rw [← failMaskOf_eq_zero_iff i.groups bound]
  rcases exec_cases i s with ⟨-, pass, run⟩ | ⟨-, fail, run⟩ | ⟨hdr, ill, -⟩
  · obtain rfl := Host.Outcome.next.inj (run.symm.trans h)
    simp [pass]
  · obtain rfl := Host.Outcome.next.inj (run.symm.trans h)
    simp [fail]
  · exact absurd ill (legal hdr)

/-- After OK, OUT holds the result bytes and zeros after them (R27). -/
theorem exec_out_of_ok (h : exec i s = .next t) (ok : t.code = .ok) : t.out = outOf i.result := by
  rcases exec_cases i s with ⟨-, -, run⟩ | ⟨-, -, run⟩ | ⟨hdr, rfl, run⟩ <;>
    obtain rfl := Host.Outcome.next.inj (run.symm.trans h)
  · exact s.complete_out _ _
  · simp at ok
  · simp at ok

/-- DECW of an intact group returns the group's word (R43, R120). -/
theorem exec_decw_w16 {g : WordGroup} (h : exec (.decw g) s = .next t) (valid : g.valid = true) : t.w16 = g.word := by
  have ok : t.code = .ok := (exec_code_eq_ok_iff h nofun).mpr (by simpa [Instr.groups] using valid)
  simp [State.w16, exec_out_of_ok h ok, Instr.result, WordGroup.word, word]

/-- DECF that ends OK returns the channel's bytes as `F32(0)` (R44, R140). -/
theorem exec_decf_f32 {c : Channel} (h : exec (.decf c) s = .next t) (ok : t.code = .ok) : t.f32 0 = c.floatBits := by
  simp [State.f32, exec_out_of_ok h ok, Instr.result, Channel.dataBytes, Channel.floatBits]

end Sys2Proof.Machine

namespace Sys2Proof.Proofs.Memory

open Sys2Proof.Machine

/-- Settles O43: where DECF ends OK both groups are intact, so each DECW returns its group's word, and the channel's float
bits are these two words. -/
theorem floatIsTheTwoWords : Obligations.FloatIsTheTwoWords := by
  intro c s t u v decf decwHigh decwLow ok
  have valid := (exec_code_eq_ok_iff decf nofun).mp ok
  have high : c.high.valid = true := valid c.high (by simp [Instr.groups, Channel.groups])
  have low : c.low.valid = true := valid c.low (by simp [Instr.groups, Channel.groups])
  rw [exec_decf_f32 decf ok, exec_decw_w16 decwHigh high, exec_decw_w16 decwLow low, c.floatBits_eq_words]

end Sys2Proof.Proofs.Memory
end

section
/-! PROOFS. The written form of a request (spec/30_encoding.md R60 to R65): the decoder on a byte sequence said once, what
a decoded request carries, and the row of R62 that a header and a mnemonic select. -/

namespace Sys2Proof

open Sys2Proof.Machine

/-! ### Operand bytes on the lines (R61) -/

/-- Operand bytes laid on the lines are read back from the first lines. -/
theorem linesOf_toList_take {bytes : List Byte} (fit : bytes.length ≤ 18) :
    (linesOf bytes).toList.take bytes.length = bytes := by
  refine List.ext_getElem (by simpa using fit) fun j _ hj => ?_
  simp [hj]

/-- The first `n` lines are the same list where the lines agree below `n`. -/
theorem toList_take_congr {d d' : OperandLines} {n : Nat} (agree : ∀ j : Fin 18, j.val < n → d[j.val] = d'[j.val]) :
    d.toList.take n = d'.toList.take n := by
  refine List.ext_getElem (by simp) fun j hj _ => ?_
  simp only [List.length_take, Vector.length_toList, Nat.lt_min] at hj
  obtain ⟨below, line⟩ := hj
  simpa using agree ⟨j, line⟩ below

/-! ### The header and its row (R60, R62, R63) -/

/-- The headers that R63 reserves, by their fields. -/
theorem legalHeader_eq_false_iff (hdr : Byte) : legalHeader hdr = false ↔
    hdr.extractLsb' 4 4 ≠ 0b0000#4 ∨ hdr.extractLsb' 0 4 = 0x0#4 ∨ 0x9 ≤ (hdr.extractLsb' 0 4).toNat := by
  revert hdr; decide

/-- The reserved headers are those that no row of R62 has. -/
theorem legalHeader_eq_false_iff_opTable (hdr : Byte) :
    legalHeader hdr = false ↔ ∀ row ∈ opTable, hdr ≠ 0#4 ++ row.op := by
  revert hdr; decide

/-- The header of a row selects that row. -/
theorem headerRow_of_mem_opTable : ∀ row ∈ opTable, headerRow (0#4 ++ row.op) = some row := by decide

theorem legalHeader_of_mem_opTable : ∀ row ∈ opTable, legalHeader (0#4 ++ row.op) = true := by decide

theorem opRow_of_mem_opTable : ∀ row ∈ opTable, opRow (hdrOp (0#4 ++ row.op)) = some row := by decide

theorem operandLength_of_mem_opTable {row : OpRow} (mem : row ∈ opTable) :
    operandLength (0#4 ++ row.op) = row.n := by
  rw [operandLength, headerRow_of_mem_opTable row mem]; rfl

/-! ### What a decoded request carries (R64) -/

theorem decodeRequest_wellFormed (hdr : Byte) (d : OperandLines) : (decodeRequest hdr d).wellFormed = true := by
  cases legal : legalHeader hdr with
  | false => simp [decodeRequest_illegal hdr d legal, Instr.wellFormed, legal]
  | true => rcases legalHeader_cases hdr legal with rfl | rfl | rfl | rfl | rfl | rfl | rfl | rfl <;> rfl

/-- A well-formed request with a legal header is no illegal request. -/
theorem Instr.ne_illegal {i : Instr} (wf : i.wellFormed = true) (legal : legalHeader i.header = true) (hdr : Byte) :
    i ≠ .illegal hdr := by
  rintro rfl
  rw [Instr.header] at legal
  simp [Instr.wellFormed, legal] at wf

/-- A legal header decodes to no illegal request. -/
theorem decodeRequest_ne_illegal {hdr : Byte} (d : OperandLines) (legal : legalHeader hdr = true) :
    ∀ h, decodeRequest hdr d ≠ .illegal h :=
  Instr.ne_illegal (decodeRequest_wellFormed hdr d) ((decodeRequest_header hdr d).symm ▸ legal)

theorem decodeRequest_eq_illegal_iff (hdr : Byte) (d : OperandLines) :
    decodeRequest hdr d = .illegal hdr ↔ legalHeader hdr = false :=
  ⟨fun ill => Bool.eq_false_iff.mpr fun legal => decodeRequest_ne_illegal d legal hdr ill, decodeRequest_illegal hdr d⟩

/-- The operands of a decoded request are the first N lines (R61, R65). -/
theorem decodeRequest_operands (hdr : Byte) (d : OperandLines) :
    (decodeRequest hdr d).operands = d.toList.take (operandLength hdr) := by
  have lines : d.toList = List.ofFn fun j : Fin 18 => d[j.val] := by
    exact List.ext_getElem (by simp) fun j _ _ => by rw [List.getElem_ofFn, Vector.getElem_toList]
  rw [lines]
  cases legal : legalHeader hdr with
  | false => rw [decodeRequest_illegal hdr d legal, operandLength_illegal hdr legal]; rfl
  | true => rcases legalHeader_cases hdr legal with rfl | rfl | rfl | rfl | rfl | rfl | rfl | rfl <;> rfl

/-- The first N lines are all that a request is decoded from (R47, R61). -/
theorem decodeRequest_linesOf_take (hdr : Byte) (d : OperandLines) :
    decodeRequest hdr (linesOf (d.toList.take (operandLength hdr))) = decodeRequest hdr d := by
  have readBack := decodeRequest_linesOf (decodeRequest hdr d) (decodeRequest_wellFormed hdr d)
  rwa [decodeRequest_header, decodeRequest_operands] at readBack

/-- N operand bytes laid on the lines under a header decode to the request they are written for. -/
theorem encode_decodeRequest_linesOf {hdr : Byte} {operands : List Byte}
    (count : operands.length = operandLength hdr) :
    encode (decodeRequest hdr (linesOf operands)) = hdr :: operands := by
  have fit : operands.length ≤ 18 := count ▸ operandLength_le hdr
  rw [encode, decodeRequest_header, decodeRequest_operands, ← count, linesOf_toList_take fit]

/-! ### The decoder on a byte sequence (R7, R65) -/

/-- A byte sequence decodes exactly where it is a header, the N operand bytes the header asks for, and the rest. -/
theorem decode_eq_ok_iff {bytes rest : List Byte} {i : Instr} : decode bytes = .ok (i, rest) ↔
    ∃ hdr operands, bytes = hdr :: (operands ++ rest) ∧ operands.length = operandLength hdr ∧
      i = decodeRequest hdr (linesOf operands) := by
  constructor
  · intro h
    cases bytes with
    | nil => cases h
    | cons hdr tail =>
      rw [decode] at h
      split at h
      · cases h
      · next enough =>
        obtain ⟨rfl, rfl⟩ := Prod.mk.inj (Except.ok.inj h)
        exact ⟨hdr, tail.take (operandLength hdr), by rw [List.take_append_drop],
          List.length_take_of_le (not_lt.mp enough), rfl⟩
  · rintro ⟨hdr, operands, rfl, count, rfl⟩
    simp [decode, ← count]

/-- All 18 lines written after a header decode to the request on the lines. -/
theorem decode_cons_toList (hdr : Byte) (d : OperandLines) :
    decode (hdr :: d.toList) = .ok (decodeRequest hdr d, d.toList.drop (operandLength hdr)) :=
  decode_eq_ok_iff.mpr ⟨hdr, d.toList.take (operandLength hdr), by rw [List.take_append_drop],
    List.length_take_of_le (by simpa using operandLength_le hdr), (decodeRequest_linesOf_take hdr d).symm⟩

/-- The decoder reads from a table word the request of its header on its 18 operand lines. -/
theorem decodeTableWord_eq (nbits w : Nat) :
    decodeTableWord nbits w = some (decodeRequest (tableByte nbits w 0) (tableLines nbits w)) := by
  rw [decodeTableWord, decode_cons_toList]

/-! ### Mnemonics (R62, R71) -/

theorem mnemonicRow_eq_some {mnemonic : String} {row : OpRow} (found : mnemonicRow mnemonic = some row) :
    row ∈ opTable ∧ row.mnemonic = mnemonic :=
  ⟨List.mem_of_find?_eq_some found, by simpa using List.find?_some found⟩

/-- The row of a legal request's mnemonic has the request's header and counts its operand bytes. -/
theorem Instr.mnemonicRow_mnemonicText (i : Instr) (legal : ∀ hdr, i ≠ .illegal hdr) :
    ∃ row, mnemonicRow (mnemonicText i) = some row ∧ 0#4 ++ row.op = i.header ∧ row.n = i.operands.length := by
  cases i with
  | crc8 | enc0 | enc1 | decw | decrdy | decbool | decf | decm => exact ⟨_, rfl, rfl, rfl⟩
  | illegal hdr => exact absurd rfl (legal hdr)

/-- A request's mnemonic is that of the row its header selects, and `.hdr` where there is none. -/
theorem Instr.mnemonicText_eq (i : Instr) (wf : i.wellFormed = true) :
    mnemonicText i = (headerRow i.header).elim ".hdr" OpRow.mnemonic := by
  by_cases legal : ∀ hdr, i ≠ .illegal hdr
  · obtain ⟨row, found, header, -⟩ := i.mnemonicRow_mnemonicText legal
    obtain ⟨mem, mnemonic⟩ := mnemonicRow_eq_some found
    rw [← header, headerRow_of_mem_opTable row mem, Option.elim_some, mnemonic]
  · simp only [not_forall, not_not] at legal
    obtain ⟨hdr, rfl⟩ := legal
    have noRow : headerRow hdr = none := Option.isNone_iff_eq_none.mp ((headerRow_isNone hdr).trans wf)
    rw [Instr.header, noRow]; rfl

theorem mnemonicText_decodeRequest (hdr : Byte) (d : OperandLines) :
    mnemonicText (decodeRequest hdr d) = (headerRow hdr).elim ".hdr" OpRow.mnemonic := by
  rw [Instr.mnemonicText_eq _ (decodeRequest_wellFormed hdr d), decodeRequest_header]

end Sys2Proof

namespace Sys2Proof.Machine

/-! ### The assembler, line by line (R71, R72) -/

theorem assemble_op {mnemonic : String} {row : OpRow} (bytes : List Byte) (found : mnemonicRow mnemonic = some row) :
    (AsmLine.op mnemonic bytes).assemble =
      if bytes.length = row.n then some ((0#4 ++ row.op) :: bytes) else none := by
  simp [AsmLine.assemble, found]

/-- An operation line assembles only with a mnemonic of R62 and as many bytes as its row counts. -/
theorem assemble_op_eq_some {mnemonic : String} {bytes written : List Byte}
    (h : (AsmLine.op mnemonic bytes).assemble = some written) :
    ∃ row ∈ opTable, bytes.length = row.n ∧ written = (0#4 ++ row.op) :: bytes := by
  cases found : mnemonicRow mnemonic with
  | none => simp [AsmLine.assemble, found] at h
  | some row =>
    rw [assemble_op bytes found] at h
    split at h
    · next count =>
      obtain ⟨mem, -⟩ := mnemonicRow_eq_some found
      exact ⟨row, mem, count, (Option.some.inj h).symm⟩
    · cases h

theorem assemble_hdr (hdr : Byte) :
    (AsmLine.hdr hdr).assemble = if legalHeader hdr then none else some [hdr] := rfl

/-- A command line is its `CMD` or `CMDA` line (R72, R176). -/
theorem assemble_command (c : Command) : (AsmLine.command c).assemble =
    (match c.argument with | none => AsmLine.cmd c.word | some a => AsmLine.cmda c.word a).assemble := by
  rw [AsmLine.assemble, Command.request]
  cases c.argument <;> rfl

/-- Whatever a line assembles to is one request (R72). -/
theorem assemble_eq_encode {line : AsmLine} {bytes : List Byte} (h : line.assemble = some bytes) :
    ∃ i : Instr, i.wellFormed = true ∧ bytes = encode i := by
  cases line with
  | op mnemonic operands =>
    obtain ⟨row, mem, count, rfl⟩ := assemble_op_eq_some h
    exact ⟨decodeRequest (0#4 ++ row.op) (linesOf operands), decodeRequest_wellFormed _ _,
      (encode_decodeRequest_linesOf (count.trans (operandLength_of_mem_opTable mem).symm)).symm⟩
  | hdr header =>
    rw [assemble_hdr] at h
    split at h
    · cases h
    · next reserved => exact ⟨.illegal header, by simp [Instr.wellFormed, reserved], (Option.some.inj h).symm⟩
  | cmd cw => exact ⟨cmdRequest cw, rfl, (Option.some.inj h).symm⟩
  | cmda cw a => exact ⟨cmdaRequest cw a, rfl, (Option.some.inj h).symm⟩
  | chkw b0 b1 b2 => exact ⟨.decw ⟨b0, b1, b2⟩, rfl, (Option.some.inj h).symm⟩
  | command c =>
    obtain ⟨-, wf, -⟩ := c.request_encodes
    exact ⟨c.request, wf, (Option.some.inj h).symm⟩

end Sys2Proof.Machine

namespace Sys2Proof.Proofs.Encoding

open Sys2Proof.Machine

/-- Settles O9: the written form is the header and the operand bytes it asks for (`decode_eq_ok_iff`), and these are read
back from the lines they are laid on. -/
theorem decodeOfEncodeIsTheRequest : Obligations.DecodeOfEncodeIsTheRequest := fun i _ wf =>
  decode_eq_ok_iff.mpr ⟨i.header, i.operands, rfl, (operandLength_header i wf).symm, (decodeRequest_linesOf i wf).symm⟩

/-- Settles O10: what decodes is a header with the operand bytes it asks for, and the request decoded from the lines they
are laid on is written as them. -/
theorem encodeOfDecodeIsTheBytes : Obligations.EncodeOfDecodeIsTheBytes := by
  intro bytes rest i h
  obtain ⟨hdr, operands, rfl, count, rfl⟩ := decode_eq_ok_iff.mp h
  refine ⟨decodeRequest_wellFormed _ _, ?_⟩
  rw [encode_decodeRequest_linesOf count, List.cons_append]

/-- Settles O11: the decoder keeps the header, and the header's row, or its absence, gives the mnemonic. -/
theorem headerAloneSelectsTheOperation : Obligations.HeaderAloneSelectsTheOperation := fun hdr d =>
  ⟨decodeRequest_header hdr d, decodeRequest_wellFormed hdr d,
    (decodeRequest_eq_illegal_iff hdr d).trans (legalHeader_eq_false_iff_opTable hdr),
    fun d' => by rw [mnemonicText_decodeRequest, mnemonicText_decodeRequest]⟩

/-- Settles O12: R63's condition on the fields says that the header is not legal, and the count is by evaluation. -/
theorem reservedHeadersAreIllegal : Obligations.ReservedHeadersAreIllegal := by
  refine ⟨fun hdr d reserved => ?_, fun hdr d unreserved => ?_, by decide +kernel⟩
  · have illegal := (legalHeader_eq_false_iff hdr).mpr reserved
    have decoded := decodeRequest_illegal hdr d illegal
    exact ⟨decoded, operandLength_illegal hdr illegal, fun s =>
      ⟨s.raiseIllegalOp hdr, by rw [decoded]; rfl, s.raiseIllegalOp_code hdr⟩⟩
  · rwa [Ne, decodeRequest_eq_illegal_iff, legalHeader_eq_false_iff]

/-- Settles O13: a row's header selects the row, which names the decoded request and counts its operand bytes, its groups
and its result bytes. -/
theorem operationTableRowsHold : Obligations.OperationTableRowsHold := by
  intro row mem d s
  have legal := decodeRequest_ne_illegal d (legalHeader_of_mem_opTable row mem)
  obtain ⟨row', selected, groups, result⟩ := (decodeRequest (0#4 ++ row.op) d).opRow_header legal
  rw [decodeRequest_header, opRow_of_mem_opTable row mem] at selected
  obtain rfl := Option.some.inj selected
  obtain ⟨status, out, run⟩ := exec_report (decodeRequest (0#4 ++ row.op) d)
  refine ⟨?_, ?_, groups.symm, _, run s, fun ok => ?_⟩
  · rw [mnemonicText_decodeRequest, headerRow_of_mem_opTable row mem]; rfl
  · rw [decodeRequest_operands, operandLength_of_mem_opTable mem]
  · rw [exec_outLen_of_ok (run s) ok, result]

/-- Settles O14: a request is decoded from the first N lines alone. -/
theorem operandsBeyondLengthDontCare : Obligations.OperandsBeyondLengthDontCare := by
  intro hdr d d' agree
  rw [← decodeRequest_linesOf_take hdr d, toList_take_congr agree, decodeRequest_linesOf_take]

/-- Settles O45: the mnemonic's row has the request's header and its operand count. -/
theorem assemblerWritesTheRequest : Obligations.AssemblerWritesTheRequest := by
  intro i legal wf
  obtain ⟨row, found, header, count⟩ := i.mnemonicRow_mnemonicText (Instr.ne_illegal wf legal)
  refine ⟨?_, fun bytes other => ?_⟩
  · rw [assemble_op i.operands found, if_pos count.symm, header, encode]
  · rw [assemble_op bytes found, if_neg (count ▸ other)]

/-- Settles O46: the pseudo-instructions by their definitions, `.hdr` by whether its header is legal, and one request from
every line by the kind of line (`assemble_eq_encode`). -/
theorem linesAssembleToOneRequest : Obligations.LinesAssembleToOneRequest :=
  ⟨fun _ => rfl, fun _ _ => rfl, fun _ _ _ => rfl, fun c => ⟨rfl, assemble_command c⟩,
    fun hdr => ⟨fun reserved => by simp [assemble_hdr, reserved], fun legal => by simp [assemble_hdr, legal]⟩,
    fun _ _ h => assemble_eq_encode h⟩

/-- Settles O4: the strobe rises with RST released, so the drive of the lines performs the request on them. -/
theorem risingStrobeRunsDecodedRequest : Obligations.RisingStrobeRunsDecodedRequest := by
  intro s hdr d rest rst low inbox
  have starts : (s.withInbox rest).starts true = true := by simp [State.starts, rst, low]
  rw [step_cons s _ rest inbox]
  rcases driveLines_cases true hdr d (s.withInbox rest) with ⟨-, run⟩ | ⟨idle, -⟩
  · exact run
  · exact absurd (starts.symm.trans idle) (by decide)

/-- Settles O5: the rising strobe performs the decoded request, which is the one written. -/
theorem writtenRequestRunsAsItself : Obligations.WrittenRequestRunsAsItself := by
  intro s i rest wf rst low inbox
  have run := risingStrobeRunsDecodedRequest s i.header (linesOf i.operands) rest rst low inbox
  rwa [decodeRequest_linesOf i wf] at run

/-- Settles O8: the placed word stands first in the inbox with RST released and REQ_VALID low, so the rising strobe
performs it, and the decoder reads the same request from it. -/
theorem placedTableWordRunsNext : Obligations.PlacedTableWordRunsNext := fun s nbits w =>
  ⟨decodeRequest (tableByte nbits w 0) (tableLines nbits w), decodeTableWord_eq nbits w,
    risingStrobeRunsDecodedRequest (s.withFetchWord nbits w) _ _ s.inbox rfl rfl rfl⟩

/-- Settles O6: each of the three cases starts no step, and the drive leaves the lines' new levels alone. -/
theorem noStepWithoutRisingStrobe : Obligations.NoStepWithoutRisingStrobe := by
  intro s valid hdr d rest quiet inbox
  have idle : (s.withInbox rest).starts valid = false := by
    rcases quiet with low | held | reset
    · simp [State.starts, low]
    · simp [State.starts, held]
    · simp [State.starts, reset]
  rw [step_cons s _ rest inbox]
  rcases driveLines_cases valid hdr d (s.withInbox rest) with ⟨starts, -⟩ | ⟨-, drive⟩
  · exact absurd (starts.symm.trans idle) (by decide)
  · exact drive

/-- Settles O15: each sample is the written form of its request, so decode of encode gives it back. -/
theorem sampleRequestsDecode : Obligations.SampleRequestsDecode :=
  ⟨decodeOfEncodeIsTheRequest (.crc8 0xBE 0xEF) [] rfl, decodeOfEncodeIsTheRequest (.enc0 0xD1 0x00) [] rfl,
    decodeOfEncodeIsTheRequest (.enc1 0x46 0x00 0x00 0x02) [] rfl,
    decodeOfEncodeIsTheRequest (.decw ⟨0x12, 0x34, 0x37⟩) [] rfl,
    decodeOfEncodeIsTheRequest (.decf ⟨⟨0x43, 0xDB, 0xCB⟩, ⟨0x8C, 0x2D, 0xDC⟩⟩) [] rfl,
    decodeOfEncodeIsTheRequest (.illegal 0x14) [0x12] (by decide)⟩

end Sys2Proof.Proofs.Encoding
end

section
/-! PROOFS. The checksum (spec/40_checksum.md): `crc8` as arithmetic on numbers (R100), `crc8` as an affine map over GF(2)
and what a flipped bit does to it (R104), and the operation CRC8 (R101). -/

namespace Sys2Proof.Machine

/-! ### The pseudocode on numbers (R100) -/

/-- Bit 7 of the remainder, as R100's pseudocode on numbers reads it. -/
theorem getLsbD_seven (r : Byte) : r.getLsbD 7 = decide (r.toNat / 128 % 2 = 1) :=
  Nat.testBit_eq_decide_div_mod_eq

theorem crcShift_toNat (r : Byte) : (crcShift r).toNat = crcIteration r.toNat := by
  have double : (r <<< 1).toNat = r.toNat * 2 % 256 := by rw [BitVec.toNat_shiftLeft, Nat.shiftLeft_eq]
  have masked : (r.toNat * 2 ^^^ 0x31) % 256 = r.toNat * 2 % 256 ^^^ 0x31 := Nat.xor_mod_two_pow (n := 8)
  unfold crcShift crcIteration
  rw [getLsbD_seven]
  by_cases high : r.toNat / 128 % 2 = 1
  · simp [high, double, masked, Config.crcPoly]
  · simp [high, double]

theorem crcShifts_toNat (n : Nat) (r : Byte) : (crcShifts n r).toNat = (crcIteration^[n]) r.toNat := by
  induction n generalizing r with
  | zero => rfl
  | succ n ih => rw [crcShifts, ih, crcShift_toNat, Function.iterate_succ_apply]

theorem crcByte_toNat (r b : Byte) : (crcByte r b).toNat = (crcIteration^[8]) (r.toNat ^^^ b.toNat) := by
  rw [crcByte, crcShifts_toNat, BitVec.toNat_xor]

/-- There is no final XOR (R5, R100). -/
theorem crc8_eq_crcByte (b0 b1 : Byte) : crc8 b0 b1 = crcByte (crcByte Config.crcInit b0) b1 :=
  BitVec.xor_zero

/-! ### The remainder over GF(2) (R104) -/

/-- One shift is linear: where the polynomial is added for both remainders, it cancels. -/
theorem crcShift_xor (r e : Byte) : crcShift (r ^^^ e) = crcShift r ^^^ crcShift e := by
  have swap (a b p : Byte) : a ^^^ b ^^^ p = a ^^^ p ^^^ b := by ac_rfl
  have cancel (a b p : Byte) : a ^^^ b = a ^^^ p ^^^ (b ^^^ p) := by
    rw [← BitVec.xor_assoc, ← swap a b p, BitVec.xor_assoc (a ^^^ b), BitVec.xor_self, BitVec.xor_zero]
  unfold crcShift
  rw [BitVec.getLsbD_xor, BitVec.shiftLeft_xor_distrib]
  cases r.getLsbD 7 <;> cases e.getLsbD 7
  · rfl
  · exact BitVec.xor_assoc ..
  · exact swap ..
  · exact cancel ..

theorem crcShifts_xor (n : Nat) (r e : Byte) : crcShifts n (r ^^^ e) = crcShifts n r ^^^ crcShifts n e := by
  induction n generalizing r e with
  | zero => rfl
  | succ n ih => rw [crcShifts, crcShift_xor, ih, crcShifts, crcShifts]

theorem crcShifts_add (m n : Nat) (r : Byte) : crcShifts (m + n) r = crcShifts n (crcShifts m r) := by
  induction m generalizing r with
  | zero => rw [Nat.zero_add, crcShifts]
  | succ m ih => rw [Nat.succ_add, crcShifts, ih, crcShifts]

/-- A shift keeps a nonzero remainder nonzero: where bit 7 drops out, the polynomial's constant term sets bit 0. -/
theorem crcShift_ne_zero {r : Byte} (nonzero : r ≠ 0#8) : crcShift r ≠ 0#8 := by
  unfold crcShift
  cases high : r.getLsbD 7 with
  | true =>
    have constantTerm : (r <<< 1 ^^^ Config.crcPoly).getLsbD 0 = true := by
      rw [BitVec.getLsbD_xor, BitVec.getLsbD_shiftLeft]
      rfl
    exact fun zero => absurd (constantTerm.symm.trans (congrArg (·.getLsbD 0) zero)) (by decide)
  | false =>
    rw [getLsbD_seven, decide_eq_false_iff_not] at high
    simp only [Bool.false_eq_true, if_false]
    bv_omega

theorem crcShifts_ne_zero (n : Nat) {r : Byte} (nonzero : r ≠ 0#8) : crcShifts n r ≠ 0#8 := by
  induction n generalizing r with
  | zero => exact nonzero
  | succ n ih => exact ih (crcShift_ne_zero nonzero)

/-- `x^n` mod the polynomial is never zero. -/
theorem crcShifts_one_ne_zero (n : Nat) : crcShifts n 0x01#8 ≠ 0x00#8 := crcShifts_ne_zero n (by decide)

/-- Below the polynomial's degree, `x^k` is the byte with bit `k` alone. -/
theorem twoPow_eq_crcShifts_one : ∀ k < 8, BitVec.twoPow 8 k = crcShifts k 0x01#8 := by decide

/-! ### The checksum of changed data (R104) -/

theorem crcByte_xor (r b er eb : Byte) :
    crcByte (r ^^^ er) (b ^^^ eb) = crcByte r b ^^^ crcShifts 8 (er ^^^ eb) := by
  have regroup : r ^^^ er ^^^ (b ^^^ eb) = r ^^^ b ^^^ (er ^^^ eb) := by ac_rfl
  rw [crcByte, crcByte, regroup, crcShifts_xor]

/-- `crc8` is affine: a change of the data changes the checksum by the change's own shifts, whatever the data. -/
theorem crc8_xor (h l eh el : Byte) :
    crc8 (h ^^^ eh) (l ^^^ el) = crc8 h l ^^^ crcShifts 8 (crcShifts 8 eh ^^^ el) := by
  have first := crcByte_xor Config.crcInit h 0#8 eh
  rw [BitVec.xor_zero, BitVec.zero_xor] at first
  rw [crc8_eq_crcByte, first, crcByte_xor, crc8_eq_crcByte]

/-- Bit `k` of the low byte, flipped, changes the checksum by `x^(k+8)`. -/
theorem crc8_flip_lo (h l : Byte) {k : Nat} (hk : k < 8) :
    crc8 h (l ^^^ BitVec.twoPow 8 k) = crc8 h l ^^^ crcShifts (k + 8) 0x01#8 := by
  have change := crc8_xor h l 0#8 (crcShifts k 0x01#8)
  have still : crcShifts 8 0#8 = 0#8 := by decide
  rwa [BitVec.xor_zero, still, BitVec.zero_xor, ← crcShifts_add, ← twoPow_eq_crcShifts_one k hk] at change

/-- Bit `k` of the high byte, which is bit `k + 8` of the word, flipped, changes the checksum by `x^((k+8)+8)`. -/
theorem crc8_flip_hi (h l : Byte) {k : Nat} (hk : k < 8) :
    crc8 (h ^^^ BitVec.twoPow 8 k) l = crc8 h l ^^^ crcShifts (k + 8 + 8) 0x01#8 := by
  have change := crc8_xor h l (crcShifts k 0x01#8) 0#8
  rwa [BitVec.xor_zero, BitVec.xor_zero, ← crcShifts_add, ← crcShifts_add, ← twoPow_eq_crcShifts_one k hk] at change

/-- The bytes of a word with one of its low eight bits set. -/
theorem bytes_twoPow_lo : ∀ k < 8,
    hiByte (BitVec.twoPow 16 k) = 0#8 ∧ loByte (BitVec.twoPow 16 k) = BitVec.twoPow 8 k := by decide

/-- The bytes of a word with one of its high eight bits set. -/
theorem bytes_twoPow_hi : ∀ k < 8,
    hiByte (BitVec.twoPow 16 (k + 8)) = BitVec.twoPow 8 k ∧ loByte (BitVec.twoPow 16 (k + 8)) = 0#8 := by decide

/-- Bit `k` of the word of the two data bytes, flipped, changes the checksum by `x^(k+8)`. -/
theorem crc8_flip_word (h l : Byte) {k : Nat} (hk : k < 16) :
    crc8 (h ^^^ hiByte (BitVec.twoPow 16 k)) (l ^^^ loByte (BitVec.twoPow 16 k)) =
      crc8 h l ^^^ crcShifts (k + 8) 0x01#8 := by
  by_cases low : k < 8
  · obtain ⟨hi, lo⟩ := bytes_twoPow_lo k low
    rw [hi, lo, BitVec.xor_zero, crc8_flip_lo h l low]
  · obtain ⟨j, rfl⟩ := Nat.exists_eq_add_of_le' (Nat.le_of_not_lt low)
    have hj : j < 8 := by omega
    obtain ⟨hi, lo⟩ := bytes_twoPow_hi j hj
    rw [hi, lo, BitVec.xor_zero, crc8_flip_hi h l hj]

end Sys2Proof.Machine

namespace Sys2Proof

open Sys2Proof.Machine

/-- A flipped bit of the checksum byte leaves the expected checksum as it was, and one of the data bytes changes it by a
power of `x`, which is not zero (R104). -/
theorem WordGroup.flipBit_valid {g : WordGroup} (k : Fin 24) (intact : g.valid = true) : (g.flipBit k).valid = false := by
  have changed (n : Nat) : crc8 g.hi g.lo ^^^ crcShifts n 0x01#8 ≠ crc8 g.hi g.lo :=
    fun same => crcShifts_one_ne_zero n (xor_left_eq_self_iff.mp same)
  rw [WordGroup.valid_iff] at intact
  rw [Bool.eq_false_iff, ne_eq, WordGroup.valid_iff, WordGroup.flipBit, ← intact]
  split
  · next inChk =>
    rw [twoPow_eq_crcShifts_one k inChk]
    exact (changed k).symm
  · split
    · rw [crc8_flip_lo g.hi g.lo (by omega)]
      exact changed _
    · rw [crc8_flip_hi g.hi g.lo (by omega)]
      exact changed _

end Sys2Proof

namespace Sys2Proof.Proofs.Checksum

open Sys2Proof.Machine

/-- Settles O37: byte by byte, eight shifts are eight iterations of the pseudocode (`crcByte_toNat`). -/
theorem crc8FollowsThePseudocode : Obligations.Crc8FollowsThePseudocode := by
  intro b0 b1
  rw [crc8_eq_crcByte, crcByte_toNat, crcByte_toNat]
  rfl

/-- Settles O38: the flips by the byte they are in, the changed checksum by affinity, and one checksum for any two data
bytes because the validator compares with `crc8`. -/
theorem singleBitErrorsAreDetected : Obligations.SingleBitErrorsAreDetected := by
  refine ⟨fun g => WordGroup.flipBit_valid, fun h l k => ⟨crc8_flip_word h l k.isLt, crcShifts_one_ne_zero _⟩,
    fun h l => ⟨crc8 h l, ?_, fun c' passes => ?_⟩⟩
  · exact (WordGroup.valid_iff _).mpr rfl
  · exact ((WordGroup.valid_iff _).mp passes).symm

/-- Settles O16: CRC8 completes with the checksum as its one result byte, whatever the state. -/
theorem crc8WritesTheChecksum : Obligations.Crc8WritesTheChecksum := by
  have status : packStatus 1#4 0x1#4 0#6 .ok = 0x1101#16 := by decide
  refine ⟨decodeRequest_crc8, fun b0 b1 s => ?_, by decide +kernel⟩
  exact ⟨s.complete 0x1 [crc8 b0 b1], rfl, status, rfl, s.sameElsewhere_report _ _⟩

end Sys2Proof.Proofs.Checksum
end

section
/-! PROOFS. The command encoders (spec/41_frame_encode.md): ENC0 and ENC1 complete with the frame of their request (R110,
R111), and the argument of an F1 frame with its checksum is an intact word group (R112). -/

namespace Sys2Proof.Machine

/-! ### The frames and the group in F1 (R66) -/

theorem exec_enc0 (cHi cLo : Byte) (s : State) :
    exec (.enc0 cHi cLo) s = .next (s.complete 0x2 (frameF0 cHi cLo)) := rfl

theorem exec_enc1 (cHi cLo aHi aLo : Byte) (s : State) :
    exec (.enc1 cHi cLo aHi aLo) s = .next (s.complete 0x3 (frameF1 cHi cLo aHi aLo)) := rfl

theorem outOf_frameF0 (cHi cLo : Byte) : outOf (frameF0 cHi cLo) = #v[cHi, cLo, 0, 0, 0, 0, 0, 0, 0, 0, 0, 0] := rfl

theorem outOf_frameF1 (cHi cLo aHi aLo : Byte) :
    outOf (frameF1 cHi cLo aHi aLo) = #v[cHi, cLo, aHi, aLo, crc8 aHi aLo, 0, 0, 0, 0, 0, 0, 0] := rfl

/-- Two data bytes and their checksum pass the validator (R103). -/
theorem WordGroup.valid_crc8 (h l : Byte) : (WordGroup.mk h l (crc8 h l)).valid = true :=
  (WordGroup.valid_iff _).mpr rfl

/-- DECW of an intact group, from every state, ends OK with the group's word (R120). -/
theorem exec_decw_of_valid {g : WordGroup} (valid : g.valid = true) (s : State) :
    ∃ t, exec (.decw g) s = .next t ∧ t.code = .ok ∧ t.w16 = g.word := by
  obtain ⟨status, out, run⟩ := exec_report (.decw g)
  exact ⟨_, run s, (exec_code_eq_ok_iff (run s) nofun).mpr (by simpa [Instr.groups] using valid),
    exec_decw_w16 (run s) valid⟩

end Sys2Proof.Machine

namespace Sys2Proof.Proofs.FrameEncode

open Sys2Proof.Machine

/-- Settles O17: ENC0 completes with the F0 frame, whatever the command word and the state. -/
theorem enc0BuildsFrameF0 : Obligations.Enc0BuildsFrameF0 := by
  have status : packStatus 2#4 0x2#4 0#6 .ok = 0x2201#16 := by decide
  exact ⟨decodeRequest_enc0, fun cHi cLo s =>
    ⟨_, exec_enc0 cHi cLo s, status, outOf_frameF0 cHi cLo, s.sameElsewhere_report _ _⟩⟩

/-- Settles O18: ENC1 completes with the F1 frame, whatever the command word, the argument and the state; the example
checksums are by evaluation. -/
theorem enc1BuildsFrameF1 : Obligations.Enc1BuildsFrameF1 := by
  have status : packStatus 5#4 0x3#4 0#6 .ok = 0x5301#16 := by decide
  refine ⟨decodeRequest_enc1, fun cHi cLo aHi aLo s => ?_, by decide +kernel⟩
  exact ⟨_, exec_enc1 cHi cLo aHi aLo s, status, outOf_frameF1 cHi cLo aHi aLo, s.sameElsewhere_report _ _⟩

/-- Settles O41: ENC1 leaves the argument bytes and their checksum in O[2..4], which is an intact group, so DECW of it
ends OK with the argument. -/
theorem encodedArgumentIsAnIntactGroup : Obligations.EncodedArgumentIsAnIntactGroup := by
  intro cHi cLo aHi aLo s
  obtain ⟨-, encodes, -⟩ := enc1BuildsFrameF1
  obtain ⟨t, enc1, -, out, -⟩ := encodes cHi cLo aHi aLo s
  have group : (⟨t.out[2], t.out[3], t.out[4]⟩ : WordGroup) = ⟨aHi, aLo, crc8 aHi aLo⟩ := by rw [out]; rfl
  obtain ⟨u, decw, ok, word⟩ := exec_decw_of_valid (WordGroup.valid_crc8 aHi aLo) t
  exact ⟨t, u, enc1, by rw [group]; exact decw, ok, word⟩

end Sys2Proof.Proofs.FrameEncode
end

section
/-! PROOFS. The word-group decoders (spec/42_frame_decode.md): a decode of one group completes with its result or raises
ChecksumError with mask 0b000001 (R120 to R122), the flag each flag decode shows, and what a word with its checksum
(R123) and a single-bit error in it (R124) end in. -/

namespace Sys2Proof

open Sys2Proof.Machine

theorem Instr.ne_illegal_of_groups {i : Instr} {g : WordGroup} (one : i.groups = [g]) (hdr : Byte) :
    i ≠ .illegal hdr := by
  rintro rfl
  cases one

/-! ### The flag readings of a low byte (R121, R122) -/

theorem WordGroup.isReady_eq_decide (g : WordGroup) : g.isReady = decide (g.lo = 0x01#8) := beq_eq_decide ..

theorem WordGroup.isTrue_eq_decide (g : WordGroup) : g.isTrue = decide (g.lo ≠ 0x00#8) := by
  rw [WordGroup.isTrue, bne, beq_eq_decide, decide_not]

/-- The two bytes of a word are the word (R42). -/
theorem Machine.hiByte_append_loByte (w : Word) : hiByte w ++ loByte w = w :=
  BitVec.extractLsb'_append_extractLsb'_eq_extractLsb' rfl |>.trans BitVec.extractLsb'_eq_self

/-- A word with its checksum is intact (R123). -/
theorem intactGroup_valid (v : Word) : (intactGroup v).valid = true := WordGroup.valid_crc8 _ _

end Sys2Proof

namespace Sys2Proof.Machine

variable {i : Instr} {g : WordGroup} {s t : State}

theorem flagByte_decide (p : Prop) [Decidable p] : flagByte (decide p) = if p then 0x01#8 else 0x00#8 := by
  simp [flagByte]

theorem outOf_flagByte (b : Bool) : outOf [flagByte b] = #v[flagByte b, 0, 0, 0, 0, 0, 0, 0, 0, 0, 0, 0] := rfl

/-- A flag written as the one result byte is read back as FLAG (R10). -/
theorem State.flag_of_out {b : Bool} (out : s.out = outOf [flagByte b]) : s.flag = b := by
  rw [State.flag, out]
  cases b <;> rfl

/-! ### A decode of one group (R120 to R122) -/

theorem exec_of_valid_group (one : i.groups = [g]) (valid : g.valid = true) (s : State) :
    exec i s = .next (s.complete (hdrOp i.header) i.result) := by
  rw [exec_legal i s (Instr.ne_illegal_of_groups one), one]
  simp [State.finishDecode, failMaskOf_singleton, valid]

theorem exec_of_invalid_group (one : i.groups = [g]) (invalid : g.valid = false) (s : State) :
    exec i s = .next (s.raiseChecksumError (hdrOp i.header) 0b000001#6) := by
  rw [exec_legal i s (Instr.ne_illegal_of_groups one), one]
  simp [State.finishDecode, failMaskOf_singleton, invalid]

/-- A decode of one group answers a next state by the group's checksum: the result with status OK, or the mask 0b000001
with a cleared OUT. -/
theorem exec_one_group {h l c : Byte} (one : i.groups = [⟨h, l, c⟩]) (s : State) :
    ∃ t, exec i s = .next t ∧ s.SameElsewhere t ∧
      (crc8 h l = c → t.status = packStatus (BitVec.ofNat 4 i.result.length) (hdrOp i.header) 0#6 .ok ∧
        t.out = outOf i.result) ∧
      (crc8 h l ≠ c → t.status = packStatus 0#4 (hdrOp i.header) 0b000001#6 .checksumError ∧
        t.out = #v[0, 0, 0, 0, 0, 0, 0, 0, 0, 0, 0, 0]) := by
  by_cases pass : crc8 h l = c
  · have run := exec_of_valid_group one ((WordGroup.valid_iff _).mpr pass) s
    exact ⟨_, run, exec_sameElsewhere run, fun _ => ⟨rfl, rfl⟩, fun fail => absurd pass fail⟩
  · have run := exec_of_invalid_group one (Bool.eq_false_iff.mpr (mt (WordGroup.valid_iff _).mp pass)) s
    exact ⟨_, run, exec_sameElsewhere run, fun ok => absurd ok pass, fun _ => ⟨rfl, outOf_nil⟩⟩

/-- A decode of one group to the flag `p`: O[0] and FLAG show whether `p` holds, where the group is intact. -/
theorem exec_one_group_flag {h l c : Byte} {p : Prop} [Decidable p] (one : i.groups = [⟨h, l, c⟩])
    (result : i.result = [flagByte (decide p)]) (s : State) :
    ∃ t, exec i s = .next t ∧ s.SameElsewhere t ∧
      (crc8 h l = c → t.status = packStatus 1#4 (hdrOp i.header) 0#6 .ok ∧
        t.out = #v[if p then 0x01#8 else 0x00#8, 0, 0, 0, 0, 0, 0, 0, 0, 0, 0, 0] ∧ t.flag = decide p) ∧
      (crc8 h l ≠ c → t.status = packStatus 0#4 (hdrOp i.header) 0b000001#6 .checksumError ∧
        t.out = #v[0, 0, 0, 0, 0, 0, 0, 0, 0, 0, 0, 0]) := by
  obtain ⟨t, run, same, intact, corrupt⟩ := exec_one_group one s
  rw [result] at intact
  refine ⟨t, run, same, fun pass => ?_, corrupt⟩
  obtain ⟨status, out⟩ := intact pass
  exact ⟨status, by rw [out, outOf_flagByte, flagByte_decide], State.flag_of_out out⟩

/-- A decode of an intact group to a flag shows the flag. -/
theorem exec_flag_of_valid {b : Bool} (run : exec i s = .next t) (one : i.groups = [g]) (valid : g.valid = true)
    (result : i.result = [flagByte b]) : t.flag = b := by
  obtain rfl := Host.Outcome.next.inj ((exec_of_valid_group one valid s).symm.trans run)
  exact State.flag_of_out (by rw [State.complete_out, result])

end Sys2Proof.Machine

namespace Sys2Proof.Proofs.FrameDecode

open Sys2Proof.Machine

/-- Settles O19: DECW is a decode of one group (`exec_one_group`), and its result bytes are those of W16. -/
theorem decwValidatesAndReturnsTheWord : Obligations.DecwValidatesAndReturnsTheWord := by
  have okStatus : packStatus 2#4 0x4#4 0#6 .ok = 0x2401#16 := by decide
  have failStatus : packStatus 0#4 0x4#4 0b000001#6 .checksumError = 0x0406#16 := by decide
  refine ⟨decodeRequest_decw, fun h l c s => ?_, by decide +kernel⟩
  rw [← okStatus, ← failStatus]
  obtain ⟨t, run, same, intact, corrupt⟩ := exec_one_group (i := .decw ⟨h, l, c⟩) rfl s
  refine ⟨t, run, same, fun pass => ?_, corrupt⟩
  obtain ⟨status, out⟩ := intact pass
  exact ⟨status, out, by rw [State.w16, out]; rfl⟩

/-- Settles O20: DECRDY is a decode of one group to the flag of `isReady`. -/
theorem decrdyReadsTheReadyFlag : Obligations.DecrdyReadsTheReadyFlag := by
  have okStatus : packStatus 1#4 0x5#4 0#6 .ok = 0x1501#16 := by decide
  have failStatus : packStatus 0#4 0x5#4 0b000001#6 .checksumError = 0x0506#16 := by decide
  refine ⟨decodeRequest_decrdy, fun h l c s => ?_, by decide +kernel⟩
  rw [← okStatus, ← failStatus]
  exact exec_one_group_flag (i := .decrdy ⟨h, l, c⟩) rfl (by rw [Instr.result, WordGroup.isReady_eq_decide]) s

/-- Settles O21: DECBOOL is a decode of one group to the flag of `isTrue`. -/
theorem decboolReadsTheBooleanFlag : Obligations.DecboolReadsTheBooleanFlag := by
  have okStatus : packStatus 1#4 0x6#4 0#6 .ok = 0x1601#16 := by decide
  have failStatus : packStatus 0#4 0x6#4 0b000001#6 .checksumError = 0x0606#16 := by decide
  refine ⟨decodeRequest_decbool, fun h l c s => ?_, by decide +kernel⟩
  rw [← okStatus, ← failStatus]
  exact exec_one_group_flag (i := .decbool ⟨h, l, c⟩) rfl (by rw [Instr.result, WordGroup.isTrue_eq_decide]) s

/-- Settles O22: on an intact group the flags are `lo = 1` and `lo ≠ 0`, which are equivalent exactly for 0 and 1. -/
theorem flagDecodesAgreeOnlyOnZeroAndOne : Obligations.FlagDecodesAgreeOnlyOnZeroAndOne := by
  intro g s t u valid decrdy decbool
  have ready : t.flag = decide (g.lo = 0x01#8) :=
    (exec_flag_of_valid decrdy rfl valid rfl).trans g.isReady_eq_decide
  have bool : u.flag = decide (g.lo ≠ 0x00#8) :=
    (exec_flag_of_valid decbool rfl valid rfl).trans g.isTrue_eq_decide
  rw [ready, bool, decide_eq_decide]
  bv_omega

/-- Settles O39: CRC8 leaves in O[0] the byte that makes the group intact, so DECW of it ends OK with its word. -/
theorem wordRoundTrip : Obligations.WordRoundTrip := by
  intro v s
  obtain ⟨-, checksum, -⟩ := Checksum.crc8WritesTheChecksum
  obtain ⟨t, crc, -, out, -⟩ := checksum (hiByte v) (loByte v) s
  have group : (⟨hiByte v, loByte v, t.out[0]⟩ : WordGroup) = intactGroup v := by rw [out]; rfl
  obtain ⟨u, decw, ok, word⟩ := exec_decw_of_valid (intactGroup_valid v) s
  exact ⟨t, u, crc, by rw [group]; exact decw, ok, word.trans (hiByte_append_loByte v)⟩

/-- Settles O40: the flipped group is not intact (R104), and it is the one group that each of the three decodes checks. -/
theorem wordDecodesDetectSingleBitErrors : Obligations.WordDecodesDetectSingleBitErrors := by
  intro v k s i mem
  have one : i.groups = [(intactGroup v).flipBit k] := by
    simp only [List.mem_cons, List.not_mem_nil, or_false] at mem
    rcases mem with rfl | rfl | rfl <;> rfl
  have invalid := WordGroup.flipBit_valid k (intactGroup_valid v)
  exact ⟨_, exec_of_invalid_group one invalid s, by simp, by simp⟩

end Sys2Proof.Proofs.FrameDecode
end

section
/-! PROOFS. The float unpacker (spec/43_float_unpack.md): a decode of any groups completes where all of them are intact and
raises ChecksumError with the mask of those that fail where one is not (R140, R141), a channel passes its bits unchanged
(R143), and a pattern reads as a number by the range of its exponent field (R142). -/

namespace Sys2Proof

open Sys2Proof.Machine

/-! ### Channels and their groups (R43, R46) -/

/-- The groups that DECM checks are the six of the lines, in order (R141). -/
theorem decodeRequest_decm_groups (d : OperandLines) : (decodeRequest 0x08#8 d).groups = List.ofFn (groupAt d) := rfl

theorem groupAt_valid_iff (d : OperandLines) (k : Fin 6) :
    (groupAt d k).valid = true ↔ crc8 d[3 * k.val] d[3 * k.val + 1] = d[3 * k.val + 2] :=
  WordGroup.valid_iff (groupAt d k)

/-- The intact channel of a pattern carries the pattern (R43, R143). -/
theorem intactChannel_floatBits (x : FloatBits) : (intactChannel x).floatBits = x := by
  have group (v : Word) : (intactGroup v).word = v := hiByte_append_loByte v
  rw [Channel.floatBits_eq_words, intactChannel, group, group]
  exact (BitVec.extractLsb'_append_extractLsb'_eq_extractLsb' rfl).trans BitVec.extractLsb'_eq_self

end Sys2Proof

namespace Sys2Proof.Machine

variable {i : Instr} {s t : State}

/-! ### A decode of any groups (R140, R141) -/

/-- Two groups' mask: the fail bit of the first in bit 0, that of the second in bit 1 (R140). -/
theorem failMaskOf_pair (g g' : WordGroup) :
    failMaskOf [g, g'] = 0#4 ++ BitVec.ofBool (!g'.valid) ++ BitVec.ofBool (!g.valid) := by
  cases first : g.valid <;> cases second : g'.valid <;> simp [failMaskOf, failBit, first, second]

/-- A legal request answers a next state by its groups' checksums: the result with status OK where all are intact, and
otherwise the mask of the groups that fail with a cleared OUT (R200, R202). -/
theorem exec_groups (legal : ∀ hdr, i ≠ .illegal hdr) (s : State) :
    ∃ t, exec i s = .next t ∧ s.SameElsewhere t ∧
      ((∀ g ∈ i.groups, g.valid = true) →
        t.status = packStatus (BitVec.ofNat 4 i.result.length) (hdrOp i.header) 0#6 .ok ∧ t.out = outOf i.result) ∧
      (¬(∀ g ∈ i.groups, g.valid = true) →
        t.status = packStatus 0#4 (hdrOp i.header) (failMaskOf i.groups) .checksumError ∧
        t.out = #v[0, 0, 0, 0, 0, 0, 0, 0, 0, 0, 0, 0]) := by
  rw [← failMaskOf_eq_zero_iff i.groups (groups_length_le i)]
  rcases exec_cases i s with ⟨-, pass, run⟩ | ⟨-, fail, run⟩ | ⟨hdr, ill, -⟩
  · exact ⟨_, run, exec_sameElsewhere run, fun _ => ⟨rfl, rfl⟩, fun failing => absurd pass failing⟩
  · exact ⟨_, run, exec_sameElsewhere run, fun passing => absurd passing fail, fun _ => ⟨rfl, outOf_nil⟩⟩
  · exact absurd ill (legal hdr)

/-- DECF answers the four data bytes where both groups are intact, and otherwise the mask `{0000, bad1, bad0}` (R140). -/
theorem exec_decf (h0 l0 c0 h1 l1 c1 : Byte) (s : State) :
    ∃ t, exec (.decf ⟨⟨h0, l0, c0⟩, ⟨h1, l1, c1⟩⟩) s = .next t ∧ s.SameElsewhere t ∧
      (crc8 h0 l0 = c0 ∧ crc8 h1 l1 = c1 →
        t.status = packStatus 4#4 0x7#4 0#6 .ok ∧ t.out = #v[h0, l0, h1, l1, 0, 0, 0, 0, 0, 0, 0, 0]) ∧
      (¬(crc8 h0 l0 = c0 ∧ crc8 h1 l1 = c1) →
        t.status = packStatus 0#4 0x7#4
          (0#4 ++ BitVec.ofBool (crc8 h1 l1 != c1) ++ BitVec.ofBool (crc8 h0 l0 != c0)) .checksumError ∧
        t.out = #v[0, 0, 0, 0, 0, 0, 0, 0, 0, 0, 0, 0]) := by
  obtain ⟨t, run, same, intact, corrupt⟩ := exec_groups (i := .decf ⟨⟨h0, l0, c0⟩, ⟨h1, l1, c1⟩⟩) nofun s
  simp only [Instr.groups, Channel.groups, failMaskOf_pair, List.forall_mem_cons, List.not_mem_nil, false_imp_iff,
    implies_true, and_true, WordGroup.valid_iff] at intact corrupt
  exact ⟨t, run, same, intact, corrupt⟩

/-- DECF of an intact channel, from every state, ends OK with the channel's float bits (R140). -/
theorem exec_decf_of_valid {c : Channel} (high : c.high.valid = true) (low : c.low.valid = true) (s : State) :
    ∃ t, exec (.decf c) s = .next t ∧ t.code = .ok ∧ t.f32 0 = c.floatBits := by
  obtain ⟨status, out, run⟩ := exec_report (.decf c)
  have ok := (exec_code_eq_ok_iff (run s) nofun).mpr (by simpa [Instr.groups, Channel.groups] using ⟨high, low⟩)
  exact ⟨_, run s, ok, exec_decf_f32 (run s) ok⟩

/-- The result bytes of DECM are the data bytes of the six groups on the lines, and fill OUT (R141). -/
theorem outOf_decm_result (d : OperandLines) : outOf (decodeRequest 0x08#8 d).result =
    #v[d[0], d[1], d[3], d[4], d[6], d[7], d[9], d[10], d[12], d[13], d[15], d[16]] := rfl

/-- Each float of the result bytes of DECM is that of the channel at its place (R141). -/
theorem State.f32_of_decm_out {d : OperandLines} (out : t.out = outOf (decodeRequest 0x08#8 d).result) (c : Fin 3) :
    t.f32 c = (channelAt d c).floatBits := by
  have place : c = 0 ∨ c = 1 ∨ c = 2 := by omega
  rw [State.f32, out, outOf_decm_result]
  rcases place with rfl | rfl | rfl <;> rfl

/-! ### How a pattern reads as a number (R142) -/

theorem mkRat_subnormal (f : Nat) : mkRat f (2 ^ 149) = f * (2 : Rat) ^ (-149 : Int) := by
  rw [Rat.mkRat_eq_div, zpow_neg, div_eq_mul_inv]
  norm_cast

/-- The significand `2^23 + f` at scale `2^(e-150)`, which is `1 + f/2^23` at scale `2^(e-127)`. -/
theorem mkRat_normal (f e : Nat) :
    mkRat ((2 ^ 23 + f) * 2 ^ e) (2 ^ 150) = (1 + f / (2 : Rat) ^ 23) * (2 : Rat) ^ ((e : Int) - 127) := by
  have scale : (2 : Rat) ^ ((e : Int) - 127) = 2 ^ e / 2 ^ 127 := by
    rw [zpow_sub₀ two_ne_zero, zpow_natCast]
    norm_cast
  rw [Rat.mkRat_eq_div, scale]
  push_cast
  ring

variable {x : FloatBits}

theorem floatValue_subnormal (zero : floatExp x = 0#8) :
    floatValue x = .finite (floatSign x) ((floatFrac x).toNat * (2 : Rat) ^ (-149 : Int)) := by
  rw [floatValue, if_pos zero, mkRat_subnormal]

theorem floatValue_normal (nonzero : floatExp x ≠ 0#8) (below : floatExp x ≠ 255#8) :
    floatValue x = .finite (floatSign x)
      ((1 + (floatFrac x).toNat / (2 : Rat) ^ 23) * (2 : Rat) ^ (((floatExp x).toNat : Int) - 127)) := by
  rw [floatValue, if_neg nonzero, if_neg below, ← mkRat_normal]

theorem floatValue_infinite (top : floatExp x = 255#8) (zero : floatFrac x = 0#23) :
    floatValue x = .infinite (floatSign x) := by
  simp [floatValue, top, zero]

theorem floatValue_nan (top : floatExp x = 255#8) (nonzero : floatFrac x ≠ 0#23) :
    floatValue x = .nan ((floatFrac x).getLsbD 22) := by
  simp [floatValue, top, nonzero]

end Sys2Proof.Machine

namespace Sys2Proof.Proofs.FloatUnpack

open Sys2Proof.Machine

/-- Settles O24: DECM is a decode of the six groups on the lines (`exec_groups`), its result bytes are those of the three
channels, and each channel's two groups are among the six. -/
theorem decmUnpacksTheMeasurement : Obligations.DecmUnpacksTheMeasurement := by
  intro d s
  have okStatus : packStatus 12#4 0x8#4 0#6 .ok = 0xC801#16 := by decide
  have six : groupCount 0x08#8 = 6 := by decide
  have legal := decodeRequest_ne_illegal (hdr := 0x08#8) d (by decide)
  obtain ⟨t, run, same, intact, corrupt⟩ := exec_groups legal s
  simp only [decodeRequest_decm_groups, List.forall_mem_ofFn_iff, groupAt_valid_iff] at intact corrupt
  refine ⟨t, run, same, rfl, fun pass => ?_, fun fail => ?_, by decide +kernel⟩
  · obtain ⟨status, out⟩ := intact pass
    have f32 := State.f32_of_decm_out out
    refine ⟨status.trans okStatus, out.trans (outOf_decm_result d), f32 0, f32 1, f32 2, fun c => ?_⟩
    have valid (k : Fin 6) : (groupAt d k).valid = true := (groupAt_valid_iff d k).mpr (pass k)
    obtain ⟨u, decf, ok, bits⟩ := exec_decf_of_valid (c := channelAt d c) (valid _) (valid _) s
    exact ⟨u, decf, ok, (f32 c).trans bits.symm⟩
  · obtain ⟨status, out⟩ := corrupt (not_forall.mpr fail)
    obtain ⟨t', run', mask⟩ := Registers.failMaskRecordsEveryFailingGroup 0x08#8 d s
    obtain rfl := Host.Outcome.next.inj (run.symm.trans run')
    refine ⟨by simp [State.code, status], ?_, by simp [State.outLen, status], out, fun k => ?_⟩
    · rw [exec_op run, decodeRequest_header]; rfl
    · rw [mask k]
      simp [six]

/-- Settles O23: DECF answers its bytes or its mask (`exec_decf`), and each failing case is one value of the mask. -/
theorem decfUnpacksOneChannel : Obligations.DecfUnpacksOneChannel := by
  have okStatus : packStatus 4#4 0x7#4 0#6 .ok = 0x4701#16 := by decide
  refine ⟨decodeRequest_decf, fun h0 l0 c0 h1 l1 c1 s => ?_, by decide +kernel⟩
  obtain ⟨t, run, same, intact, corrupt⟩ := exec_decf h0 l0 c0 h1 l1 c1 s
  refine ⟨t, run, same, fun pass => ?_, fun ⟨bad0, good1⟩ => ?_, fun ⟨good0, bad1⟩ => ?_, fun ⟨bad0, bad1⟩ => ?_⟩
  · obtain ⟨status, out⟩ := intact pass
    exact ⟨status.trans okStatus, out, by rw [State.f32, out]; rfl⟩
  · obtain ⟨status, out⟩ := corrupt fun ⟨good0, _⟩ => bad0 good0
    rw [bne_iff_ne.mpr bad0, bne_eq_false_iff_eq.mpr good1] at status
    exact ⟨status, out⟩
  · obtain ⟨status, out⟩ := corrupt fun ⟨_, good1⟩ => bad1 good1
    rw [bne_eq_false_iff_eq.mpr good0, bne_iff_ne.mpr bad1] at status
    exact ⟨status, out⟩
  · obtain ⟨status, out⟩ := corrupt fun ⟨good0, _⟩ => bad0 good0
    rw [bne_iff_ne.mpr bad0, bne_iff_ne.mpr bad1] at status
    exact ⟨status, out⟩

/-- Settles O42: the channel is intact, so DECF ends OK with its float bits, which are the pattern. -/
theorem floatBitsPassUnchanged : Obligations.FloatBitsPassUnchanged := by
  intro x s
  obtain ⟨t, run, ok, bits⟩ := exec_decf_of_valid (c := intactChannel x) (intactGroup_valid _) (intactGroup_valid _) s
  exact ⟨t, run, ok, bits.trans (intactChannel_floatBits x)⟩

/-- Settles O44: the fields by definition, the value by the range of the exponent field, and the example by evaluation. -/
theorem floatReadingFollowsBinary32 : Obligations.FloatReadingFollowsBinary32 := by
  refine ⟨fun x => ⟨rfl, rfl, rfl, fun zero => ?_, fun least most => ?_, fun top zero => ?_, fun top nonzero => ?_⟩,
    by decide +kernel⟩
  · exact floatValue_subnormal (BitVec.eq_of_toNat_eq zero)
  · exact floatValue_normal (by bv_omega) (by bv_omega)
  · exact floatValue_infinite (BitVec.eq_of_toNat_eq top) zero
  · exact floatValue_nan (BitVec.eq_of_toNat_eq top) nonzero

end Sys2Proof.Proofs.FloatUnpack
end

section
/-! PROOFS. The command catalogue (spec/44_command_catalogue.md): the lines and requests of R176 row by row, and the call of
a command, which encodes the frame and hands it to the transport (R160). -/

namespace Sys2Proof.Machine

/-! ### The requests (R160, R176) -/

@[simp] theorem hiByte_word (hi lo : Byte) : hiByte (word hi lo) = hi := BitVec.extractLsb'_append_eq_left

@[simp] theorem loByte_word (hi lo : Byte) : loByte (word hi lo) = lo := BitVec.extractLsb'_append_eq_right

/-- A command without an argument is encoded by ENC0 of its word's bytes. -/
theorem request_eq_enc0 {c : Command} {cHi cLo : Byte} (cw : c.word = word cHi cLo)
    (noArgument : c.argument = none) : c.request = .enc0 cHi cLo := by
  rw [Command.request, noArgument, cw]
  simp only [cmdRequest, hiByte_word, loByte_word]

/-- A command with an argument is encoded by ENC1 of its word's bytes and the argument's. -/
theorem request_eq_enc1 {c : Command} {cHi cLo : Byte} {a : Word} (cw : c.word = word cHi cLo)
    (argument : c.argument = some a) : c.request = .enc1 cHi cLo (hiByte a) (loByte a) := by
  rw [Command.request, argument, cw]
  simp only [cmdaRequest, hiByte_word, loByte_word]

/-! ### Lines with an argument (R72, R176) -/

/-- The commands that take a word read it with `readWord`. -/
theorem readLine_word_command (x : List Char) :
    readLine "SET_INTERVAL" [x] = (readWord x).map (fun v => .command (.setInterval v)) ∧
    readLine "SET_ALT" [x] = (readWord x).map (fun v => .command (.setAlt v)) ∧
    readLine "SET_TOFF" [x] = (readWord x).map (fun v => .command (.setToff v)) ∧
    readLine "SET_FRC" [x] = (readWord x).map (fun v => .command (.setFrc v)) := ⟨rfl, rfl, rfl, rfl⟩

/-- `SET_ASC` reads its flag with `readFlag`. -/
theorem readLine_setAsc (x : List Char) :
    readLine "SET_ASC" [x] = (readFlag x).map (fun f => .command (.setAsc f)) := rfl

/-! ### The responses (R69, R176) -/

/-- No response is one float channel: it is empty, one word group, or six. -/
theorem Response.length_mem (r : Response) : r.length ∈ [0, 3, 18] := by
  cases r <;> simp [Response.length]

/-! ### The call of a command (R160) -/

/-- The encode of a command ends OK with the command's frame, from every state. -/
theorem exec_request_ok (c : Command) (s : State) :
    ∃ u, exec c.request s = .next u ∧ u.code = .ok ∧ u.resultBytes = c.frame ∧ s.SameElsewhere u := by
  obtain ⟨nogroups, -, legal⟩ := c.request_encodes
  obtain ⟨status, out, run⟩ := exec_report c.request
  exact ⟨_, run s, (exec_code_eq_ok_iff (run s) legal).mpr (by simp [nogroups]), exec_request_resultBytes c (run s),
    exec_sameElsewhere (run s)⟩

/-- A ready host with RST released answers a call: it encodes the command and goes on to write the result bytes. -/
theorem callCommand_of_ready (c : Command) {s : State} (ready : s.session = .ready) (rst : s.rst = false) :
    ∃ u, exec c.request (s.withLines true c.request.header (linesOf c.request.operands)) = .next u ∧
      callCommand c s = .next (((u.withLines false c.request.header (linesOf c.request.operands)).withSession
        (.writing c u.resultBytes)).withReturned none) := by
  obtain ⟨-, wf, -⟩ := c.request_encodes
  rw [callCommand, ready]
  rcases issue_cases c.request.header (linesOf c.request.operands) s _ with ⟨held, -⟩ | ⟨-, u, run, e⟩
  · exact absurd (rst.symm.trans held) (by decide)
  · rw [decodeRequest_linesOf c.request wf] at run
    exact ⟨u, run, e⟩

end Sys2Proof.Machine

namespace Sys2Proof.Proofs.Catalogue

open Sys2Proof.Machine

/-- Settles O48: the call is one encode of the command's request, which ends OK with the frame as the result bytes, and the
host's write carries these bytes. -/
theorem calledCommandWritesItsFrame : Obligations.CalledCommandWritesItsFrame := by
  intro c s rest ready rst inbox
  obtain ⟨u, run, call⟩ := callCommand_of_ready c (s := s.withInbox rest) ready rst
  obtain ⟨u', run', ok, frame, -, -, -, -, -, -, inbox'⟩ := exec_request_ok c _
  obtain rfl := Host.Outcome.next.inj (run.symm.trans run')
  rw [frame] at call
  exact ⟨_, (step_cons s _ rest inbox).trans call, ok, frame, rfl, rfl, rfl, inbox'⟩

/-- Settles O47: ENC0 or ENC1 of the bytes that the command word joins (`request_eq_enc0`,
`request_eq_enc1`), the decode that each response's header selects, and no response of 6 bytes
(`Response.length_mem`). -/
theorem catalogueFollowsTheTable : Obligations.CatalogueFollowsTheTable := by
  refine ⟨⟨request_eq_enc0 rfl rfl, rfl⟩, ⟨request_eq_enc1 (a := 0x0000#16) rfl rfl, rfl⟩,
    ⟨request_eq_enc0 rfl rfl, rfl⟩, fun a => ⟨request_eq_enc1 (a := a) rfl rfl, rfl⟩,
    ⟨request_eq_enc0 rfl rfl, rfl⟩, ⟨request_eq_enc0 rfl rfl, rfl⟩, ⟨request_eq_enc0 rfl rfl, rfl⟩,
    ⟨request_eq_enc1 (a := 0x0001#16) rfl rfl, rfl⟩, ⟨request_eq_enc1 (a := 0x0000#16) rfl rfl, rfl⟩,
    ⟨request_eq_enc0 rfl rfl, rfl⟩, ⟨request_eq_enc0 rfl rfl, rfl⟩,
    fun a => ⟨request_eq_enc1 (a := a) rfl rfl, rfl⟩, ⟨request_eq_enc0 rfl rfl, rfl⟩,
    fun a => ⟨request_eq_enc1 (a := a) rfl rfl, rfl⟩, ⟨request_eq_enc0 rfl rfl, rfl⟩,
    fun a => ⟨request_eq_enc1 (a := a) rfl rfl, rfl⟩, ⟨rfl, rfl⟩,
    fun d => ⟨_, rfl, rfl, decodeRequest_decw d⟩,
    fun d => ⟨_, rfl, rfl, decodeRequest_decrdy d⟩, fun d => ⟨_, rfl, rfl, decodeRequest_decbool d⟩,
    fun d => ⟨_, rfl, rfl, decodeRequest_decm d⟩, fun c six => ?_⟩
  have listed := c.response.length_mem
  rw [six] at listed
  exact absurd listed (by decide)

/-- Settles O56: the names without an argument read as their commands by `readLine`'s own rows, and the others with the
argument that `readWord` or `readFlag` reads. -/
theorem commandNamesReadAsTheirCommands : Obligations.CommandNamesReadAsTheirCommands := by
  refine ⟨rfl, rfl, rfl, rfl, rfl, rfl, rfl, rfl, rfl, rfl, fun x v word => ?_, fun x f flag => ?_⟩
  · obtain ⟨interval, alt, toff, frc⟩ := readLine_word_command x
    rw [interval, alt, toff, frc, word]
    exact ⟨rfl, rfl, rfl, rfl⟩
  · rw [readLine_setAsc, flag]
    rfl

end Sys2Proof.Proofs.Catalogue
end

section
/-! PROOFS. Outcomes, errors and the host's contract (spec/60_exceptions.md): the code of a request by its header and its
groups (R200, R202), the stimuli the block always answers (R209), what each phase of the host does on the answer it waits
for (R206 to R208), and one whole command from call to result. -/

namespace Sys2Proof

open Sys2Proof.Machine

/-! ### The groups and the response of a decode (R29, R176) -/

/-- The groups a decoded request checks are those on the lines below its group count (R29, R46). -/
theorem forall_mem_decodeRequest_groups {hdr : Byte} {d : OperandLines} {p : WordGroup → Prop} :
    (∀ g ∈ (decodeRequest hdr d).groups, p g) ↔ ∀ k : Fin 6, k.val < groupCount hdr → p (groupAt d k) := by
  constructor
  · intro all k checked
    exact all _ (List.mem_of_getElem? ((decodeRequest_groups hdr d k).trans (if_pos checked)))
  · intro all g mem
    obtain ⟨k, hk, rfl⟩ := List.mem_iff_getElem.mp mem
    have place := decodeRequest_groups hdr d ⟨k, hk.trans_le (groups_length_le _)⟩
    rw [List.getElem?_eq_getElem hk] at place
    split at place
    · next checked => exact Option.some.inj place ▸ all _ checked
    · cases place

end Sys2Proof

namespace Sys2Proof.Machine

/-- A response is empty exactly where the command has none (R176). -/
theorem Response.length_eq_zero_iff (r : Response) : r.length = 0 ↔ r = .none := by
  cases r <;> simp [Response.length]

/-- Every response but the empty one has a decode (R176). -/
theorem Response.header_of_ne_none {r : Response} (responds : r ≠ .none) : ∃ hdr, r.header = some hdr := by
  cases r with
  | none => exact absurd rfl responds
  | word | ready | bool | measurement => exact ⟨_, rfl⟩

theorem Response.legalHeader_header {r : Response} {hdr : Byte} (decodes : r.header = some hdr) :
    legalHeader hdr = true := by
  cases r <;> cases decodes <;> decide

@[simp] theorem State.withLines_code (s : State) (valid : Bool) (hdr : Byte) (d : OperandLines) :
    (s.withLines valid hdr d).code = s.code := rfl

/-- The result views read OUT, not the lines (R10). -/
@[simp] theorem Response.view_withLines (r : Response) (s : State) (valid : Bool) (hdr : Byte) (d : OperandLines) :
    r.view (s.withLines valid hdr d) = r.view s := by
  cases r <;> rfl

variable {s t : State}

/-! ### The code of a request (R200, R202) -/

/-- A legal request ends OK where every group it checks is intact, and CHECKSUM_ERROR otherwise. -/
theorem exec_code_of_legal {i : Instr} (run : exec i s = .next t) (legal : ∀ hdr, i ≠ .illegal hdr) :
    t.code = if ∀ g ∈ i.groups, g.valid = true then .ok else .checksumError := by
  simp only [← failMaskOf_eq_zero_iff i.groups (groups_length_le i)]
  rcases exec_cases i s with ⟨-, pass, run'⟩ | ⟨-, fail, run'⟩ | ⟨hdr, ill, -⟩
  · obtain rfl := Host.Outcome.next.inj (run'.symm.trans run)
    simp [pass]
  · obtain rfl := Host.Outcome.next.inj (run'.symm.trans run)
    simp [fail]
  · exact absurd ill (legal hdr)

theorem exec_illegal (hdr : Byte) (s : State) : exec (.illegal hdr) s = .next (s.raiseIllegalOp hdr) := rfl

theorem State.raiseIllegalOp_status (s : State) (hdr : Byte) :
    (s.raiseIllegalOp hdr).status = packStatus 0#4 (hdrOp hdr) 0#6 .illegalOp := rfl

/-! ### The stimuli that never stop the machine (R209, R232) -/

theorem passTime_answers (ms : Nat) (s : State) : ∃ t, passTime ms s = .next t := by
  unfold passTime
  split
  · split
    · exact ⟨_, rfl⟩
    · split <;> exact ⟨_, rfl⟩
  all_goals exact ⟨_, rfl⟩

theorem passTime_inbox {ms : Nat} (h : passTime ms s = .next t) : t.inbox = s.inbox := by
  rcases passTime_next h with ⟨-, rfl⟩ | ⟨c, waitedMs, -, ⟨-, rfl⟩ | ⟨-, -, rfl⟩ | ⟨-, -, rfl⟩⟩ <;> rfl

/-- The lines, RST and time are always answered, and take nothing more from outside. -/
theorem react_linesOrTime_answers {x : Stimulus} (lines : x.ofLinesOrTime = true) (s : State) :
    ∃ t, react x s = .next t ∧ t.inbox = s.inbox := by
  cases x with
  | drive valid hdr d =>
    rcases driveLines_cases valid hdr d s with ⟨-, e⟩ | ⟨-, e⟩
    · obtain ⟨status, out, run⟩ := exec_report (decodeRequest hdr d)
      exact ⟨_, e.trans (run _), rfl⟩
    · exact ⟨_, e, rfl⟩
  | setRst level =>
    rcases driveRst_cases level s with ⟨-, e⟩ | ⟨-, e⟩ | ⟨-, -, e⟩ <;> exact ⟨_, e, rfl⟩
  | elapsed ms =>
    obtain ⟨t, e⟩ := passTime_answers ms s
    exact ⟨t, e, passTime_inbox e⟩
  | openBus | opened | dropHandle | call | written | readDone | readFailed => cases lines

/-! ### The host's step in each phase (R206 to R208) -/

/-- A failed open returns IoError and leaves no session (R206). -/
theorem step_opened_false {bus : Nat} {rest : List Stimulus} (opening : s.session = .opening bus)
    (inbox : s.inbox = .opened false :: rest) :
    step s = .next (((s.withInbox rest).withSession .closed).withReturned (some (.error .ioError))) := by
  rw [step_cons s _ rest inbox]
  simp [react, openAnswer, opening]

/-- A written frame is followed by the settle delay, and a failed write by CommunicationError (R208). -/
theorem step_written {c : Command} {frame : List Byte} {ok : Bool} {rest : List Stimulus}
    (writing : s.session = .writing c frame) (inbox : s.inbox = .written ok :: rest) :
    step s = .next (if ok then (s.withInbox rest).withSession (.settling c 0)
      else (s.withInbox rest).returning (.error .communicationError)) := by
  rw [step_cons s _ rest inbox]
  cases ok <;> simp [react, writeAnswer, writing]

/-- A host whose settle delay has passed returns unit, or reads where the command has a response (R235). -/
theorem step_elapsed_of_settled {c : Command} {waitedMs ms : Nat} {rest : List Stimulus}
    (settling : s.session = .settling c waitedMs) (late : Config.settleDelayMs c ≤ waitedMs + ms)
    (inbox : s.inbox = .elapsed ms :: rest) :
    step s = .next (if c.response = .none then (s.withInbox rest).returning .unit
      else (s.withInbox rest).withSession (.reading c)) := by
  rw [step_cons s _ rest inbox]
  simp only [react, passTime, State.withInbox_session, settling, not_lt.mpr late, if_false,
    Response.length_eq_zero_iff]
  split <;> rfl

/-- A failed read returns CommunicationError (R206). -/
theorem step_readFailed {c : Command} {rest : List Stimulus} (reading : s.session = .reading c)
    (inbox : s.inbox = .readFailed :: rest) :
    step s = .next ((s.withInbox rest).returning (.error .communicationError)) := by
  rw [step_cons s _ rest inbox]
  simp [react, readFailure, reading]

/-- While a transport call is outstanding, the caller's operations are refused (R213, R236). -/
theorem react_caller_of_outstanding {x : Stimulus}
    (caller : (∃ c, x = .call c) ∨ (∃ bus, x = .openBus bus) ∨ x = .dropHandle)
    (busy : s.session.outstanding ≠ none) : react x s = .refused .concurrentOperation := by
  cases session : s.session with
  | closed | ready =>
    rw [session] at busy
    exact absurd rfl busy
  | opening | writing | settling | reading =>
    rcases caller with ⟨c, rfl⟩ | ⟨bus, rfl⟩ | rfl
    · simp only [react, callCommand, session]
    · simp only [react, openSession, session]
    · simp only [react, dropSession, session]

/-! ### What the host returns after a read (R176, R208) -/

/-- Where every group of the response is intact, the result view is the value the data bytes stand for. -/
theorem Response.view_of_intact {r : Response} {hdr : Byte} {bytes : OperandLines} (decodes : r.header = some hdr)
    (run : exec (decodeRequest hdr bytes) s = .next t)
    (intact : ∀ g ∈ (decodeRequest hdr bytes).groups, g.valid = true) : r.view t = r.expected bytes := by
  cases r <;> cases decodes
  case word =>
    have valid : (groupAt bytes 0).valid = true := intact _ (List.mem_singleton_self _)
    simp only [Response.view, Response.expected, valid, if_true, exec_decw_w16 run valid]
  case ready | bool =>
    have valid : (groupAt bytes 0).valid = true := intact _ (List.mem_singleton_self _)
    simp only [Response.view, Response.expected, valid, if_true, exec_flag_of_valid run rfl valid rfl]
    rfl
  case measurement =>
    have legal := decodeRequest_ne_illegal (hdr := 0x08#8) bytes (by decide)
    have out := exec_out_of_ok run ((exec_code_eq_ok_iff run legal).mpr intact)
    rw [decodeRequest_decm_groups, List.forall_mem_ofFn_iff] at intact
    simp only [Response.view, Response.expected, if_pos intact, State.f32_of_decm_out out]

/-- Where a group of the response fails, the host is to return ChecksumError. -/
theorem Response.expected_of_corrupt {r : Response} {hdr : Byte} {bytes : OperandLines} (decodes : r.header = some hdr)
    (corrupt : ¬∀ g ∈ (decodeRequest hdr bytes).groups, g.valid = true) :
    r.expected bytes = .error .checksumError := by
  cases r <;> cases decodes
  case word | ready | bool =>
    have invalid : ¬(groupAt bytes 0).valid = true := fun valid => corrupt (List.forall_mem_singleton.mpr valid)
    exact if_neg invalid
  case measurement =>
    rw [decodeRequest_decm_groups, List.forall_mem_ofFn_iff] at corrupt
    exact if_neg corrupt

/-- A reading host with RST released answers the read with the value of the response, or ChecksumError. -/
theorem step_readDone {c : Command} {bytes : OperandLines} {rest : List Stimulus} (reading : s.session = .reading c)
    (rst : s.rst = false) (responds : c.response ≠ .none) (inbox : s.inbox = .readDone bytes :: rest) :
    ∃ t, step s = .next t ∧ t.returned = some (c.response.expected bytes) ∧ t.session = .ready := by
  obtain ⟨hdr, decodes⟩ := Response.header_of_ne_none responds
  rw [step_cons s _ rest inbox]
  simp only [react, readAnswer, State.withInbox_session, reading, decodes]
  rcases issue_cases hdr bytes (s.withInbox rest) _ with ⟨held, -⟩ | ⟨-, u, run, e⟩
  · exact absurd (rst.symm.trans held) (by decide)
  · refine ⟨_, e, ?_, rfl⟩
    have code := exec_code_of_legal run (decodeRequest_ne_illegal bytes (Response.legalHeader_header decodes))
    rw [State.returning_returned, State.withLines_code, Response.view_withLines, code]
    by_cases intact : ∀ g ∈ (decodeRequest hdr bytes).groups, g.valid = true
    · rw [if_pos intact, if_neg (by decide), Response.view_of_intact decodes run intact]
    · rw [if_neg intact, if_pos rfl, Response.expected_of_corrupt decodes intact]

/-! ### One whole command (R208) -/

/-- The first two steps of a command: the encode with the write call, and the write's success. -/
theorem runSteps_call_written {c : Command} {rest : List Stimulus} (ready : s.session = .ready) (rst : s.rst = false)
    (inbox : s.inbox = .call c :: .written true :: rest) (n : Nat) :
    ∃ t, runSteps (n + 2) s = runSteps n t ∧ t.session = .settling c 0 ∧ t.rst = false ∧ t.inbox = rest := by
  obtain ⟨u, run, call⟩ := callCommand_of_ready c (s := s.withInbox (.written true :: rest)) ready rst
  obtain ⟨rst', -, -, -, -, -, inbox'⟩ := exec_sameElsewhere run
  have called := (step_cons s _ _ inbox).trans call
  exact ⟨_, (runSteps_succ_next _ _ _ called).trans (runSteps_succ_next _ _ _ (step_written rfl inbox')), rfl,
    rst'.trans rst, rfl⟩

end Sys2Proof.Machine

namespace Sys2Proof.Proofs.Exceptions

open Sys2Proof.Machine

/-- Settles O27: an illegal header raises IllegalOp and checks no group, and a legal request ends by whether all its groups
are intact (`exec_code_of_legal`). -/
theorem everyStepEndsInOneOfThreeOutcomes : Obligations.EveryStepEndsInOneOfThreeOutcomes := by
  intro hdr d s
  cases legal : legalHeader hdr with
  | false =>
    rw [decodeRequest_illegal hdr d legal]
    refine ⟨_, exec_illegal hdr s, ?_⟩
    simp [groupCount_illegal hdr legal]
  | true =>
    obtain ⟨status, out, run⟩ := exec_report (decodeRequest hdr d)
    have code := exec_code_of_legal (run s) (decodeRequest_ne_illegal d legal)
    refine ⟨_, run s, ?_⟩
    simp only [code, forall_mem_decodeRequest_groups]
    split
    · next intact => simpa using intact
    · next corrupt => simpa using corrupt

/-- Settles O35: the step is the reaction to a stimulus of the lines, RST or time, which is always answered. -/
theorem theBlockNeverStops : Obligations.TheBlockNeverStops := by
  intro s x rest inbox lines
  rw [step_cons s x rest inbox]
  exact react_linesOrTime_answers lines (s.withInbox rest)

/-- Settles O53: after the call and the write the host settles (`runSteps_call_written`); the delay passed, it returns unit,
or reads and returns what the response stands for (`step_readDone`). -/
theorem commandReturnsItsResult : Obligations.CommandReturnsItsResult := by
  intro c ms bytes s ready rst late
  rw [← Nat.zero_add ms] at late
  refine ⟨fun silent inbox => ?_, fun responds inbox => ?_⟩
  · obtain ⟨t, runs, settling, -, inbox'⟩ := runSteps_call_written ready rst inbox 1
    have elapsed := step_elapsed_of_settled settling late inbox'
    rw [if_pos silent] at elapsed
    exact ⟨_, runs.trans (runSteps_succ_next _ _ _ elapsed), rfl, rfl⟩
  · obtain ⟨t, runs, settling, rst', inbox'⟩ := runSteps_call_written ready rst inbox 2
    have elapsed := step_elapsed_of_settled settling late inbox'
    rw [if_neg responds] at elapsed
    obtain ⟨u, read, returned, session⟩ :=
      step_readDone (s := (t.withInbox [.readDone bytes]).withSession (.reading c)) rfl rst' responds rfl
    exact ⟨u, runs.trans ((runSteps_succ_next _ _ _ elapsed).trans (runSteps_succ_next _ _ _ read)), returned, session⟩

/-- Settles O25: an illegal request raises IllegalOp with its header's low four bits, from every state. -/
theorem illegalHeaderRaisesIllegalOp : Obligations.IllegalHeaderRaisesIllegalOp := by
  refine ⟨fun hdr s => ?_, fun s t run => ?_, fun s t run => ?_⟩
  · exact ⟨_, exec_illegal hdr s, by simp, by simp, s.raiseIllegalOp_op hdr, by simp,
      (s.raiseIllegalOp_out hdr).trans outOf_nil, s.sameElsewhere_report _ _⟩
  all_goals
    obtain rfl := Host.Outcome.next.inj ((exec_illegal _ s).symm.trans run)
    rw [State.raiseIllegalOp_status]
    decide

/-- Settles O49: a writing host returns CommunicationError on the write's failure and is ready, with no call outstanding. -/
theorem writeFailureReturnsCommunicationError : Obligations.WriteFailureReturnsCommunicationError := by
  intro c frame s rest writing inbox
  exact ⟨_, step_written writing inbox, rfl, rfl, rfl, rfl⟩

/-- Settles O50: an opening host returns IoError and closes, and a reading host returns CommunicationError and is ready. -/
theorem openAndReadFailuresReturnTheirErrors : Obligations.OpenAndReadFailuresReturnTheirErrors := by
  refine ⟨fun bus s rest opening inbox => ?_, fun c s rest reading inbox => ?_⟩
  · exact ⟨_, step_opened_false opening inbox, rfl, rfl, rfl⟩
  · exact ⟨_, step_readFailed reading inbox, rfl, rfl, rfl⟩

/-- Settles O54: in each of the four phases a transport call is outstanding, so the caller's operation is refused. -/
theorem secondCallBeforeReturnIsRefused : Obligations.SecondCallBeforeReturnIsRefused := by
  intro s x rest inbox caller phase
  rw [step_cons s x rest inbox]
  refine react_caller_of_outstanding caller ?_
  rw [State.withInbox_session]
  rcases phase with ⟨bus, session⟩ | ⟨c, frame, session⟩ | ⟨c, w, session⟩ | ⟨c, session⟩ <;>
    simp [session, Session.outstanding]

end Sys2Proof.Proofs.Exceptions
end

section
/-! PROOFS. Reset and hazards (spec/70_reset_and_hazards.md): what each drive of RST does (R230), the rules of the session
(R233), the settle delay under any split of time (R235), and what a run of steps keeps (R240). -/

namespace Sys2Proof.Machine

variable {s t : State}

/-! ### RST (R230) -/

theorem driveRst_same (s : State) : driveRst s.rst s = .next s := by
  rcases driveRst_cases s.rst s with ⟨-, e⟩ | ⟨edge, -⟩ | ⟨high, low, -⟩
  · exact e
  · exact absurd rfl edge
  · exact absurd (high.symm.trans low) (by decide)

theorem driveRst_release (held : s.rst = true) : driveRst false s = .next (s.clear.withRst false) := by
  rcases driveRst_cases false s with ⟨low, -⟩ | ⟨-, e⟩ | ⟨high, -⟩
  · exact absurd (low.trans held) (by decide)
  · exact e
  · exact absurd high (by decide)

/-- Which of the two an assertion of RST does is log entry 3's free value. -/
theorem driveRst_assert (released : s.rst = false) :
    driveRst true s = .next (s.withRst true) ∨ driveRst true s = .next (s.clear.withRst true) := by
  rcases driveRst_cases true s with ⟨high, -⟩ | ⟨-, e⟩ | ⟨-, -, e⟩
  · exact absurd (high.trans released) (by decide)
  · exact .inr e
  · exact .inl e

@[simp] theorem State.clear_observe (s : State) : s.clear.observe = (0x0000#16, #v[0, 0, 0, 0, 0, 0, 0, 0, 0, 0, 0, 0]) :=
  congrArg (Prod.mk 0x0000#16) outOf_nil

/-! ### Where CODE = NONE comes from (R28, R230) -/

/-- Every request ends in OK, CHECKSUM_ERROR or ILLEGAL_OP. -/
theorem exec_code_ne_none {i : Instr} (run : exec i s = .next t) : t.code ≠ .none := by
  rcases exec_cases i s with ⟨-, -, e⟩ | ⟨-, -, e⟩ | ⟨hdr, -, e⟩ <;>
    obtain rfl := Host.Outcome.next.inj (e.symm.trans run) <;> simp

theorem State.code_of_observe_eq (h : t.observe = s.observe) : t.code = s.code :=
  congrArg (fun shown : BitVec 16 × OutBytes => statusCode shown.1) h

/-- A stimulus that turns CODE into NONE is a change of RST: the others keep STATUS or leave a request's outcome in it. -/
theorem react_code_none {x : Stimulus} (h : react x s = .next t) (cleared : t.code = .none) (shown : s.code ≠ .none) :
    ∃ level, level ≠ s.rst ∧ x = .setRst level := by
  have kept : t.observe ≠ s.observe := fun same => shown (State.code_of_observe_eq same ▸ cleared)
  cases quiet : x.mayWriteOutcome with
  | false => exact absurd (react_observe_of_not_mayWriteOutcome quiet h) kept
  | true =>
    cases x with
    | drive valid hdr d =>
      rcases driveLines_next h with ⟨-, run⟩ | ⟨-, rfl⟩
      · exact (exec_code_ne_none run cleared).elim
      · exact absurd rfl kept
    | setRst level =>
      rcases driveRst_next h with ⟨-, rfl⟩ | ⟨edge, -⟩ | ⟨-, -, rfl⟩
      · exact absurd rfl kept
      · exact ⟨level, edge, rfl⟩
      · exact absurd rfl kept
    | call c =>
      obtain ⟨-, -, u, run, rfl⟩ := callCommand_next h
      exact (exec_code_ne_none run cleared).elim
    | readDone bytes =>
      obtain ⟨-, c, hdr, u, -, -, run, rfl⟩ := readAnswer_next h
      exact (exec_code_ne_none run cleared).elim
    | openBus | opened | dropHandle | written | elapsed | readFailed => cases quiet

/-! ### The session (R213, R233) -/

theorem step_openBus_of_closed {bus : Nat} {rest : List Stimulus} (closed : s.session = .closed)
    (inbox : s.inbox = .openBus bus :: rest) :
    step s = .next (((s.withInbox rest).withSession (.opening bus)).withReturned none) := by
  rw [step_cons s _ rest inbox]
  simp [react, openSession, closed]

theorem step_openBus_of_ready {bus : Nat} {rest : List Stimulus} (ready : s.session = .ready)
    (inbox : s.inbox = .openBus bus :: rest) : step s = .refused .sessionExists := by
  rw [step_cons s _ rest inbox]
  simp [react, openSession, ready]

theorem step_opened_true {bus : Nat} {rest : List Stimulus} (opening : s.session = .opening bus)
    (inbox : s.inbox = .opened true :: rest) : step s = .next ((s.withInbox rest).returning .handle) := by
  rw [step_cons s _ rest inbox]
  simp [react, openAnswer, opening]

theorem step_dropHandle_of_ready {rest : List Stimulus} (ready : s.session = .ready)
    (inbox : s.inbox = .dropHandle :: rest) : step s = .next ((s.withInbox rest).withSession .closed) := by
  rw [step_cons s _ rest inbox]
  simp [react, dropSession, ready]

theorem step_dropHandle_of_closed {rest : List Stimulus} (closed : s.session = .closed)
    (inbox : s.inbox = .dropHandle :: rest) : step s = .refused .noSession := by
  rw [step_cons s _ rest inbox]
  simp [react, dropSession, closed]

theorem step_call_of_closed {c : Command} {rest : List Stimulus} (closed : s.session = .closed)
    (inbox : s.inbox = .call c :: rest) : step s = .refused .noSession := by
  rw [step_cons s _ rest inbox]
  simp [react, callCommand, closed]

/-! ### The settle delay (R235) -/

theorem step_elapsed_of_early {c : Command} {waitedMs ms : Nat} {rest : List Stimulus}
    (settling : s.session = .settling c waitedMs) (early : waitedMs + ms < Config.settleDelayMs c)
    (inbox : s.inbox = .elapsed ms :: rest) :
    step s = .next ((s.withInbox rest).withSession (.settling c (waitedMs + ms))) := by
  rw [step_cons s _ rest inbox]
  simp [react, passTime, settling, early]

theorem step_elapsed_of_not_settling {ms : Nat} {rest : List Stimulus} (phase : ∀ c w, s.session ≠ .settling c w)
    (inbox : s.inbox = .elapsed ms :: rest) : step s = .next (s.withInbox rest) := by
  rw [step_cons s _ rest inbox]
  obtain ⟨t, e⟩ := passTime_answers ms (s.withInbox rest)
  rcases passTime_next e with ⟨-, rfl⟩ | ⟨c, w, settling, -⟩
  · exact e
  · exact absurd settling (phase c w)

/-- Time alone, in any pieces, leaves a host that is not settling where it is. -/
theorem runSteps_elapsed_of_not_settling (pieces : List Nat) (phase : ∀ c w, s.session ≠ .settling c w)
    (inbox : s.inbox = pieces.map .elapsed) : runSteps pieces.length s = .next (s.withInbox []) := by
  induction pieces generalizing s with
  | nil => exact congrArg Host.Outcome.next (congrArg s.withInbox inbox)
  | cons ms pieces ih =>
    exact (runSteps_succ_next _ _ _ (step_elapsed_of_not_settling phase inbox)).trans
      (ih (s := s.withInbox (pieces.map .elapsed)) phase rfl)

/-- The phase in which the host is once `pieces` more have passed, `waitedMs` being over: settling, until a piece reaches
the delay. -/
def settledSession (c : Command) (waitedMs : Nat) (pieces : List Nat) : Session :=
  if pieces = [] ∨ waitedMs + pieces.sum < Config.settleDelayMs c then .settling c (waitedMs + pieces.sum)
  else if c.response = .none then .ready else .reading c

theorem settledSession_cons_of_early {c : Command} {waitedMs ms : Nat} (pieces : List Nat)
    (early : waitedMs + ms < Config.settleDelayMs c) :
    settledSession c waitedMs (ms :: pieces) = settledSession c (waitedMs + ms) pieces := by
  have reached : pieces = [] ∨ waitedMs + ms + pieces.sum < Config.settleDelayMs c ↔
      waitedMs + ms + pieces.sum < Config.settleDelayMs c :=
    or_iff_right_of_imp fun none => by simpa [none] using early
  simp [settledSession, reached, ← Nat.add_assoc]

theorem settledSession_cons_of_late {c : Command} {waitedMs ms : Nat} (pieces : List Nat)
    (late : Config.settleDelayMs c ≤ waitedMs + ms) :
    settledSession c waitedMs (ms :: pieces) = if c.response = .none then .ready else .reading c := by
  have reached : ¬waitedMs + (ms + pieces.sum) < Config.settleDelayMs c := by omega
  simp [settledSession, reached]

/-- A settling host under time alone, in any pieces: it settles until the piece that reaches the delay, goes on there, and
stays in the phase it went on to. -/
theorem runSteps_elapsed_of_settling {c : Command} (pieces : List Nat) {waitedMs : Nat}
    (settling : s.session = .settling c waitedMs) (inbox : s.inbox = pieces.map .elapsed) :
    ∃ t, runSteps pieces.length s = .next t ∧ t.observe = s.observe ∧ t.session = settledSession c waitedMs pieces := by
  induction pieces generalizing s waitedMs with
  | nil => exact ⟨s, rfl, rfl, by simpa [settledSession] using settling⟩
  | cons ms pieces ih =>
    by_cases early : waitedMs + ms < Config.settleDelayMs c
    · obtain ⟨t, runs, shown, session⟩ :=
        ih (s := (s.withInbox (pieces.map .elapsed)).withSession (.settling c (waitedMs + ms))) rfl rfl
      rw [settledSession_cons_of_early pieces early]
      exact ⟨t, (runSteps_succ_next _ _ _ (step_elapsed_of_early settling early inbox)).trans runs, shown, session⟩
    · have elapsed := step_elapsed_of_settled settling (not_lt.mp early) inbox
      rw [settledSession_cons_of_late pieces (not_lt.mp early)]
      split at elapsed
      · next silent =>
        exact ⟨_, (runSteps_succ_next _ _ _ elapsed).trans (runSteps_elapsed_of_not_settling pieces nofun rfl), rfl,
          (if_pos silent).symm⟩
      · next responds =>
        exact ⟨_, (runSteps_succ_next _ _ _ elapsed).trans (runSteps_elapsed_of_not_settling pieces nofun rfl), rfl,
          (if_neg responds).symm⟩

/-! ### What every step keeps, every run keeps -/

/-- A step changes nothing on an empty inbox, and otherwise reacts to the oldest stimulus. -/
theorem step_next (h : step s = .next t) :
    (s.inbox = [] ∧ t = s) ∨ ∃ x rest, s.inbox = x :: rest ∧ react x (s.withInbox rest) = .next t := by
  cases inbox : s.inbox with
  | nil => exact .inl ⟨rfl, (Host.Outcome.next.inj ((step_nil s inbox).symm.trans h)).symm⟩
  | cons x rest => exact .inr ⟨x, rest, rfl, (step_cons s x rest inbox).symm.trans h⟩

/-- A run that ends in a state went through a state after its first step. -/
theorem runSteps_succ_inv {n : Nat} (h : runSteps (n + 1) s = .next t) :
    ∃ u, step s = .next u ∧ runSteps n u = .next t := by
  cases first : step s with
  | next u => exact ⟨u, rfl, (runSteps_succ_next n s u first).symm.trans h⟩
  | fault f => cases (runSteps_succ_fault n s f first).symm.trans h
  | refused r => cases (runSteps_succ_refused n s r first).symm.trans h

theorem runSteps_keeps {P : State → Prop} (keeps : ∀ s t, P s → step s = .next t → P t) (n : Nat) (holds : P s)
    (h : runSteps n s = .next t) : P t := by
  induction n generalizing s with
  | zero => exact Host.Outcome.next.inj h ▸ holds
  | succ n ih =>
    obtain ⟨u, first, others⟩ := runSteps_succ_inv h
    exact ih (keeps s u holds first) others

/-! ### The unanswered read (R240) -/

/-- No reaction takes or adds a stimulus of the outside world. -/
theorem react_inbox {x : Stimulus} (h : react x s = .next t) : t.inbox = s.inbox := by
  cases lines : x.ofLinesOrTime with
  | true =>
    obtain ⟨u, e, inbox⟩ := react_linesOrTime_answers lines s
    exact Host.Outcome.next.inj (e.symm.trans h) ▸ inbox
  | false =>
    cases x with
    | drive | setRst | elapsed => cases lines
    | openBus bus =>
      obtain ⟨-, rfl⟩ := openSession_next h
      rfl
    | opened ok =>
      obtain ⟨-, ⟨-, rfl⟩ | ⟨-, rfl⟩⟩ := openAnswer_next h <;> rfl
    | dropHandle =>
      obtain ⟨-, rfl⟩ := dropSession_next h
      rfl
    | call c =>
      obtain ⟨-, -, u, run, rfl⟩ := callCommand_next h
      obtain ⟨-, -, -, -, -, -, inbox⟩ := exec_sameElsewhere run
      exact inbox
    | written ok =>
      obtain ⟨c, frame, -, ⟨-, rfl⟩ | ⟨-, rfl⟩⟩ := writeAnswer_next h <;> rfl
    | readDone bytes =>
      obtain ⟨-, c, hdr, u, -, -, run, rfl⟩ := readAnswer_next h
      obtain ⟨-, -, -, -, -, -, inbox⟩ := exec_sameElsewhere run
      exact inbox
    | readFailed =>
      obtain ⟨-, rfl⟩ := readFailure_next h
      rfl

/-- A reading host stays reading on every stimulus that does not answer the read: the lines, RST and time leave it, and
every other stimulus needs another phase. -/
theorem react_keeps_reading {x : Stimulus} {c : Command} (reading : s.session = .reading c)
    (unanswered : x.answersRead = false) (h : react x s = .next t) : t.session = .reading c := by
  have busy : s.session.outstanding ≠ none := by simp [reading, Session.outstanding]
  cases x with
  | drive => exact (driveLines_session h).trans reading
  | setRst => exact (driveRst_session h).trans reading
  | elapsed =>
    rcases passTime_next h with ⟨-, rfl⟩ | ⟨c', w, settling, -⟩
    · exact reading
    · cases reading.symm.trans settling
  | openBus bus => cases (react_caller_of_outstanding (.inr (.inl ⟨bus, rfl⟩)) busy).symm.trans h
  | dropHandle => cases (react_caller_of_outstanding (.inr (.inr rfl)) busy).symm.trans h
  | call c' => cases (react_caller_of_outstanding (.inl ⟨c', rfl⟩) busy).symm.trans h
  | opened =>
    obtain ⟨⟨bus, opening⟩, -⟩ := openAnswer_next h
    cases reading.symm.trans opening
  | written =>
    obtain ⟨c', frame, writing, -⟩ := writeAnswer_next h
    cases reading.symm.trans writing
  | readDone | readFailed => cases unanswered

/-- The host waits for a read that nothing in the inbox answers. -/
def State.BlockedOnRead (c : Command) (s : State) : Prop :=
  s.session = .reading c ∧ ∀ x ∈ s.inbox, x.answersRead = false

theorem step_keeps_blockedOnRead {c : Command} (s t : State) (blocked : s.BlockedOnRead c) (h : step s = .next t) :
    t.BlockedOnRead c := by
  obtain ⟨reading, unanswered⟩ := blocked
  rcases step_next h with ⟨-, rfl⟩ | ⟨x, rest, inbox, h⟩
  · exact ⟨reading, unanswered⟩
  · rw [inbox, List.forall_mem_cons] at unanswered
    obtain ⟨now, later⟩ := unanswered
    exact ⟨react_keeps_reading (s := s.withInbox rest) reading now h, (react_inbox h).symm ▸ later⟩

end Sys2Proof.Machine

namespace Sys2Proof.Proofs.ResetAndHazards

open Sys2Proof.Machine

/-- Settles O33: the step reacts to one stimulus, and the only one that turns CODE into NONE is a change of RST
(`react_code_none`). -/
theorem onlyResetSetsCodeNone : Obligations.OnlyResetSetsCodeNone := by
  intro s t h cleared shown
  rcases step_next h with ⟨-, rfl⟩ | ⟨x, rest, inbox, h⟩
  · exact absurd cleared shown
  · obtain ⟨level, edge, rfl⟩ := react_code_none h cleared shown
    exact ⟨level, rest, edge, inbox⟩

/-- Settles O51, by induction on the pieces (`runSteps_elapsed_of_settling`), from the start of the delay. -/
theorem hostWaitsOutTheSettleDelay : Obligations.HostWaitsOutTheSettleDelay := by
  intro c pieces s settling inbox
  simpa only [settledSession, Nat.zero_add] using runSteps_elapsed_of_settling pieces settling inbox

/-- Settles O52: every step of a host blocked on its read leaves it blocked, so every run does. -/
theorem unansweredReadBlocksTheCall : Obligations.UnansweredReadBlocksTheCall := by
  intro n c s t reading unanswered h
  obtain ⟨reading', -⟩ := runSteps_keeps step_keeps_blockedOnRead n ⟨reading, unanswered⟩ h
  exact reading'

/-- Settles O2: the release of RST clears STATUS and OUT and leaves the other fields as they are. -/
theorem releasingRstResetsTheBlock : Obligations.ReleasingRstResetsTheBlock := by
  intro s rest held inbox
  exact ⟨_, (step_cons s _ rest inbox).trans (driveRst_release (s := s.withInbox rest) held), rfl, outOf_nil,
    rfl, rfl, rfl, rfl, rfl, rfl, rfl⟩

/-- Settles O3: STATUS and OUT are kept or cleared, as log entry 3's free value says (`driveRst_assert`). -/
theorem assertingRstClearsOrKeeps : Obligations.AssertingRstClearsOrKeeps := by
  intro s rest released inbox
  have stepped := step_cons s _ rest inbox
  rcases driveRst_assert (s := s.withInbox rest) released with keeps | clears
  · exact ⟨_, stepped.trans keeps, .inl rfl, rfl, rfl, rfl, rfl, rfl, rfl, rfl⟩
  · exact ⟨_, stepped.trans clears, .inr (s.withInbox rest).clear_observe, rfl, rfl, rfl, rfl, rfl, rfl, rfl⟩

/-- Settles O55: the step takes the stimulus, and RST at its own level is no edge (`driveRst_same`). -/
theorem drivingRstAtItsLevelChangesNothing : Obligations.DrivingRstAtItsLevelChangesNothing := by
  intro s rest inbox
  exact (step_cons s _ rest inbox).trans (driveRst_same (s.withInbox rest))

/-- Settles O57: the open's call carries the bus and address 0x61, its success returns the handle, and a drop closes. -/
theorem sessionOpensAndCloses : Obligations.SessionOpensAndCloses := by
  refine ⟨fun bus s rest closed inbox => ?_, fun bus s rest opening inbox => ?_, fun s rest ready inbox => ?_⟩
  · exact ⟨_, step_openBus_of_closed closed inbox, rfl, rfl, rfl, rfl, rfl⟩
  · exact ⟨_, step_opened_true opening inbox, rfl, rfl, rfl, rfl, rfl⟩
  · exact ⟨_, step_dropHandle_of_ready ready inbox, rfl, rfl, rfl, rfl, rfl⟩

/-- Settles O58: a closed host refuses a command and a drop, and a ready one a second open. -/
theorem hostOperationsNeedTheirSession : Obligations.HostOperationsNeedTheirSession := by
  refine ⟨fun s x rest closed inbox operation => ?_, fun bus s rest ready inbox => ?_⟩
  · rcases operation with ⟨c, rfl⟩ | rfl
    · exact step_call_of_closed closed inbox
    · exact step_dropHandle_of_closed closed inbox
  · exact step_openBus_of_ready ready inbox

end Sys2Proof.Proofs.ResetAndHazards
end
